-- ==== Sys2Proof/Word.lean ====
section
/-! DEFINITION. The word types of the SRPE and their plainest views (spec 00_scope.md R9, R10). -/

namespace Sys2Proof

/-- A buffer byte (R9). -/
abbrev Byte := BitVec 8

/-- A 24-bit colour operand (R9). -/
abbrev Colour := BitVec 24

/-- A 32-bit register, value operand or RESULT (R9). -/
abbrev Word := BitVec 32

/-- A 64-bit command word on the command port (R90). -/
abbrev CmdWord := BitVec 64

end Sys2Proof
end

