-- ==== Sys2Proof/Syntax.lean ====
section
/-! DEFINITION. The commands of the SRPE: one constructor per row of spec/opcode_table.json (30_encoding.md R95), and
the pseudo-instructions of R102. -/

namespace Sys2Proof

/-- A command with its operands (30_encoding.md R93, R95). Indices, positions, counts, unit numbers and displayed
numbers are numbers; colours, bytes and bits are bit vectors and Booleans (log 19). -/
inductive Instr where
  /-- PIX_SET_PIXEL (R141): pixel index, colour -/
  | pixSetPixel (i : Nat) (c : Colour)
  /-- PIX_SET_ALL (R142): colour -/
  | pixSetAll (c : Colour)
  /-- PIX_FILL_RAW (R143): byte -/
  | pixFillRaw (v : Byte)
  /-- PIX_SET_ORDER (R146): lane-map byte -/
  | pixSetOrder (m : Byte)
  /-- PIX_TRANSMIT (R148) -/
  | pixTransmit
  /-- PIX_GET_PIXEL (R149): pixel index -/
  | pixGetPixel (i : Nat)
  /-- IO_SET_LAMP (R171): lamp bit, state -/
  | ioSetLamp (k : Nat) (v : Bool)
  /-- IO_SET_LAMP_ALL (R172): state -/
  | ioSetLampAll (v : Bool)
  /-- IO_GET_BUTTON (R173): button bit -/
  | ioGetButton (k : Nat)
  /-- IO_COUNT_PRESSED (R174) -/
  | ioCountPressed
  /-- IO_COUNT_PRESSED_RANGE (R175): offset, count -/
  | ioCountPressedRange (o n : Nat)
  /-- IO_RAW_WRITE (R176): board, byte -/
  | ioRawWrite (b : Nat) (v : Byte)
  /-- IO_RAW_READ (R177): board -/
  | ioRawRead (b : Nat)
  /-- IO_TRANSACT (R178) -/
  | ioTransact
  /-- IO_GET_LAMP (R179): lamp bit -/
  | ioGetLamp (k : Nat)
  /-- IN_TRANSACT (R201) -/
  | inTransact
  /-- IN_READ_BIT (R202): pin index -/
  | inReadBit (k : Nat)
  /-- IN_READ_BYTE (R203): board -/
  | inReadByte (b : Nat)
  /-- DIG_SET_DIGIT (R213): position, digit value, decimal point -/
  | digSetDigit (p d : Nat) (dp : Bool)
  /-- DIG_COPY_SECTION (R214): from, to, length -/
  | digCopySection (f t n : Nat)
  /-- DIG_TRANSMIT (R216) -/
  | digTransmit
  /-- DIG_GET_RAW (R218): position -/
  | digGetRaw (p : Nat)
  /-- GRP_SHOW_NUMBER (R223): group, dpPos, unsigned value -/
  | grpShowNumber (g dpPos v : Nat)
  /-- GRP_SHOW_SIGNED (R225): group, dpPos, signed value -/
  | grpShowSigned (g dpPos : Nat) (v : Int)
  /-- GRP_SHOW_SYMBOL (R227): group, symbol kind -/
  | grpShowSymbol (g k : Nat)
  /-- GRP_CHASE6 (R229): group, position -/
  | grpChase6 (g q : Nat)
  /-- GRP_CHASE6_STEP (R230): group -/
  | grpChase6Step (g : Nat)
  /-- GRP_CHASE8 (R231): group, position -/
  | grpChase8 (g q : Nat)
  /-- GRP_CHASE8_STEP (R232): group -/
  | grpChase8Step (g : Nat)
  /-- TGL_POLL (R252): toggle -/
  | tglPoll (u : Nat)
  /-- TGL_CONSUME_EVENT (R253): toggle -/
  | tglConsumeEvent (u : Nat)
  /-- TGL_GET_STATE (R254): toggle -/
  | tglGetState (u : Nat)
  /-- SEL_POLL (R257): select -/
  | selPoll (u : Nat)
  /-- SEL_GET_STATE (R258): select -/
  | selGetState (u : Nat)
  /-- SEL_SET_STATE (R259): select, state (0xFFFF is RESET) -/
  | selSetState (u st : Nat)
  /-- NL_POLL (R262): no-lamp toggle -/
  | nlPoll (u : Nat)
  /-- NL_CONSUME_EVENT (R263): no-lamp toggle -/
  | nlConsumeEvent (u : Nat)
  /-- NL_GET_STATE (R264): no-lamp toggle -/
  | nlGetState (u : Nat)
  /-- STAT_READ (R280) -/
  | statRead
  /-- STAT_CLEAR (R281) -/
  | statClear
  deriving DecidableEq, Repr

/-- The pseudo-instructions of R102. -/
inductive Pseudo where
  | pixBlank
  | ioLampsOff
  | ioLampsOn
  | grpClear (g : Nat)
  | selClear (u : Nat)
  deriving DecidableEq, Repr

/-- The six orders of the closed set of 10_state.md R31 and 41_pixel.md R145. -/
inductive ColorOrder where
  | rgb | rbg | grb | gbr | brg | bgr
  deriving DecidableEq, Repr

/-- The named symbol kinds of 30_encoding.md R93 (SYM3) and R101. -/
inductive SymbolKind where
  | blank | error | foul | dash | test
  deriving DecidableEq, Repr

/-- Why a command word is illegal (30_encoding.md R96, 60_exceptions.md R302): the info of `raise Illegal(info)`, a label
the hardware does not record. -/
inductive IllegalInfo where
  /-- UNDEFINED_OPCODE: the OPC is not in the opcode map -/
  | undefinedOpcode
  /-- RESERVED_BITS: a reserved bit of the row is 1 -/
  | reservedBits
  /-- BAD_UNIT: the UNIT is out of range for its kind -/
  | badUnit
  deriving DecidableEq, Repr

end Sys2Proof
end

