-- ==== Sys2Proof/WellFormed.lean ====
section
/-! DEFINITION. When a command's operands fit its fields (30_encoding.md R91, R93): an operand that does not fit "is an
assembly error, not a command" (R101). -/

namespace Sys2Proof

/-- The UNIT field has 8 bits (R91). -/
def fitsUnit (u : Nat) : Bool := decide (u < 256)

/-- The A field has 16 bits (R91), as have the `to`, `len` and count fields of B (R93). -/
def fits16 (a : Nat) : Bool := decide (a < 65536)

/-- Every operand fits its field. An operand that fits but lies outside a buffer is well formed: it makes a rejected
call (R98). -/
def Instr.wellFormed : Instr → Bool
  | .pixSetPixel i _ => fits16 i
  | .pixSetAll _ => true
  | .pixFillRaw _ => true
  | .pixSetOrder _ => true
  | .pixTransmit => true
  | .pixGetPixel i => fits16 i
  | .ioSetLamp k _ => fits16 k
  | .ioSetLampAll _ => true
  | .ioGetButton k => fits16 k
  | .ioCountPressed => true
  | .ioCountPressedRange o n => fits16 o && fits16 n
  | .ioRawWrite b _ => fits16 b
  | .ioRawRead b => fits16 b
  | .ioTransact => true
  | .ioGetLamp k => fits16 k
  | .inTransact => true
  | .inReadBit k => fits16 k
  | .inReadByte b => fits16 b
  | .digSetDigit p d _ => fits16 p && decide (d < 256)
  | .digCopySection f t n => fits16 f && fits16 t && fits16 n
  | .digTransmit => true
  | .digGetRaw p => fits16 p
  | .grpShowNumber g dpPos v => fitsUnit g && fits16 dpPos && decide (v < 4294967296)
  | .grpShowSigned g dpPos v => fitsUnit g && fits16 dpPos && decide (-2147483648 ≤ v ∧ v < 2147483648)
  | .grpShowSymbol g k => fitsUnit g && decide (k < 8)
  | .grpChase6 g q => fitsUnit g && fits16 q
  | .grpChase6Step g => fitsUnit g
  | .grpChase8 g q => fitsUnit g && fits16 q
  | .grpChase8Step g => fitsUnit g
  | .tglPoll u => fitsUnit u
  | .tglConsumeEvent u => fitsUnit u
  | .tglGetState u => fitsUnit u
  | .selPoll u => fitsUnit u
  | .selGetState u => fitsUnit u
  | .selSetState u st => fitsUnit u && fits16 st
  | .nlPoll u => fitsUnit u
  | .nlConsumeEvent u => fitsUnit u
  | .nlGetState u => fitsUnit u
  | .statRead => true
  | .statClear => true

end Sys2Proof
end

