-- ==== Sys2Proof/Decode.lean ====
section
/-! DEFINITION. The command encoding of 30_encoding.md: the opcode map, the decoder, total on any 64-bit word and
rejecting by name, and after it the encoder. -/

namespace Sys2Proof

/-- The opcodes of the opcode map (R95). -/
inductive Opcode where
  | pixSetPixel
  | pixSetAll
  | pixFillRaw
  | pixSetOrder
  | pixTransmit
  | pixGetPixel
  | ioSetLamp
  | ioSetLampAll
  | ioGetButton
  | ioCountPressed
  | ioCountPressedRange
  | ioRawWrite
  | ioRawRead
  | ioTransact
  | ioGetLamp
  | inTransact
  | inReadBit
  | inReadByte
  | digSetDigit
  | digCopySection
  | digTransmit
  | digGetRaw
  | grpShowNumber
  | grpShowSigned
  | grpShowSymbol
  | grpChase6
  | grpChase6Step
  | grpChase8
  | grpChase8Step
  | tglPoll
  | tglConsumeEvent
  | tglGetState
  | selPoll
  | selGetState
  | selSetState
  | nlPoll
  | nlConsumeEvent
  | nlGetState
  | statRead
  | statClear
  deriving DecidableEq, Repr

/-- The UNIT kind of a row (R92, R95). -/
inductive UnitKind where
  | single | group | toggle | select | noLamp
  deriving DecidableEq, Repr

/-- The layout of the B operand (R93). -/
inductive Layout where
  | none | color24 | byte8 | bit1 | laneMap8 | digDp | toLen | count16 | u32 | s32 | sym3
  deriving DecidableEq, Repr

/-- The opcode map in the order of R95. -/
def Opcode.all : List Opcode :=
  [.pixSetPixel, .pixSetAll, .pixFillRaw, .pixSetOrder, .pixTransmit,
   .pixGetPixel, .ioSetLamp, .ioSetLampAll, .ioGetButton, .ioCountPressed,
   .ioCountPressedRange, .ioRawWrite, .ioRawRead, .ioTransact, .ioGetLamp,
   .inTransact, .inReadBit, .inReadByte, .digSetDigit, .digCopySection,
   .digTransmit, .digGetRaw, .grpShowNumber, .grpShowSigned, .grpShowSymbol,
   .grpChase6, .grpChase6Step, .grpChase8, .grpChase8Step, .tglPoll,
   .tglConsumeEvent, .tglGetState, .selPoll, .selGetState, .selSetState,
   .nlPoll, .nlConsumeEvent, .nlGetState, .statRead, .statClear]

/-- The OPC column of R95. -/
def Opcode.code : Opcode → BitVec 8
  | .pixSetPixel => 0x10
  | .pixSetAll => 0x11
  | .pixFillRaw => 0x12
  | .pixSetOrder => 0x13
  | .pixTransmit => 0x14
  | .pixGetPixel => 0x15
  | .ioSetLamp => 0x20
  | .ioSetLampAll => 0x21
  | .ioGetButton => 0x22
  | .ioCountPressed => 0x23
  | .ioCountPressedRange => 0x24
  | .ioRawWrite => 0x25
  | .ioRawRead => 0x26
  | .ioTransact => 0x27
  | .ioGetLamp => 0x28
  | .inTransact => 0x30
  | .inReadBit => 0x31
  | .inReadByte => 0x32
  | .digSetDigit => 0x40
  | .digCopySection => 0x41
  | .digTransmit => 0x42
  | .digGetRaw => 0x43
  | .grpShowNumber => 0x50
  | .grpShowSigned => 0x51
  | .grpShowSymbol => 0x52
  | .grpChase6 => 0x53
  | .grpChase6Step => 0x54
  | .grpChase8 => 0x55
  | .grpChase8Step => 0x56
  | .tglPoll => 0x60
  | .tglConsumeEvent => 0x61
  | .tglGetState => 0x62
  | .selPoll => 0x63
  | .selGetState => 0x64
  | .selSetState => 0x65
  | .nlPoll => 0x66
  | .nlConsumeEvent => 0x67
  | .nlGetState => 0x68
  | .statRead => 0x70
  | .statClear => 0x71

/-- Whether the row takes an A operand (R95: not "-"). -/
def Opcode.takesA : Opcode → Bool
  | .pixSetPixel => true
  | .pixSetAll => false
  | .pixFillRaw => false
  | .pixSetOrder => false
  | .pixTransmit => false
  | .pixGetPixel => true
  | .ioSetLamp => true
  | .ioSetLampAll => false
  | .ioGetButton => true
  | .ioCountPressed => false
  | .ioCountPressedRange => true
  | .ioRawWrite => true
  | .ioRawRead => true
  | .ioTransact => false
  | .ioGetLamp => true
  | .inTransact => false
  | .inReadBit => true
  | .inReadByte => true
  | .digSetDigit => true
  | .digCopySection => true
  | .digTransmit => false
  | .digGetRaw => true
  | .grpShowNumber => true
  | .grpShowSigned => true
  | .grpShowSymbol => false
  | .grpChase6 => true
  | .grpChase6Step => false
  | .grpChase8 => true
  | .grpChase8Step => false
  | .tglPoll => false
  | .tglConsumeEvent => false
  | .tglGetState => false
  | .selPoll => false
  | .selGetState => false
  | .selSetState => true
  | .nlPoll => false
  | .nlConsumeEvent => false
  | .nlGetState => false
  | .statRead => false
  | .statClear => false

/-- The B column of R95. -/
def Opcode.layout : Opcode → Layout
  | .pixSetPixel => .color24
  | .pixSetAll => .color24
  | .pixFillRaw => .byte8
  | .pixSetOrder => .laneMap8
  | .pixTransmit => .none
  | .pixGetPixel => .none
  | .ioSetLamp => .bit1
  | .ioSetLampAll => .bit1
  | .ioGetButton => .none
  | .ioCountPressed => .none
  | .ioCountPressedRange => .count16
  | .ioRawWrite => .byte8
  | .ioRawRead => .none
  | .ioTransact => .none
  | .ioGetLamp => .none
  | .inTransact => .none
  | .inReadBit => .none
  | .inReadByte => .none
  | .digSetDigit => .digDp
  | .digCopySection => .toLen
  | .digTransmit => .none
  | .digGetRaw => .none
  | .grpShowNumber => .u32
  | .grpShowSigned => .s32
  | .grpShowSymbol => .sym3
  | .grpChase6 => .none
  | .grpChase6Step => .none
  | .grpChase8 => .none
  | .grpChase8Step => .none
  | .tglPoll => .none
  | .tglConsumeEvent => .none
  | .tglGetState => .none
  | .selPoll => .none
  | .selGetState => .none
  | .selSetState => .none
  | .nlPoll => .none
  | .nlConsumeEvent => .none
  | .nlGetState => .none
  | .statRead => .none
  | .statClear => .none

/-- The UNIT column of R95. -/
def Opcode.unitKind : Opcode → UnitKind
  | .pixSetPixel => .single
  | .pixSetAll => .single
  | .pixFillRaw => .single
  | .pixSetOrder => .single
  | .pixTransmit => .single
  | .pixGetPixel => .single
  | .ioSetLamp => .single
  | .ioSetLampAll => .single
  | .ioGetButton => .single
  | .ioCountPressed => .single
  | .ioCountPressedRange => .single
  | .ioRawWrite => .single
  | .ioRawRead => .single
  | .ioTransact => .single
  | .ioGetLamp => .single
  | .inTransact => .single
  | .inReadBit => .single
  | .inReadByte => .single
  | .digSetDigit => .single
  | .digCopySection => .single
  | .digTransmit => .single
  | .digGetRaw => .single
  | .grpShowNumber => .group
  | .grpShowSigned => .group
  | .grpShowSymbol => .group
  | .grpChase6 => .group
  | .grpChase6Step => .group
  | .grpChase8 => .group
  | .grpChase8Step => .group
  | .tglPoll => .toggle
  | .tglConsumeEvent => .toggle
  | .tglGetState => .toggle
  | .selPoll => .select
  | .selGetState => .select
  | .selSetState => .select
  | .nlPoll => .noLamp
  | .nlConsumeEvent => .noLamp
  | .nlGetState => .noLamp
  | .statRead => .single
  | .statClear => .single

/-- The reserved bits of a B layout (R93). -/
def Layout.reserved : Layout → Word
  | .none => 0xFFFFFFFF
  | .color24 => 0xFF000000
  | .byte8 => 0xFFFFFF00
  | .bit1 => 0xFFFFFFFE
  | .laneMap8 => 0xFFFFFF00
  | .digDp => 0xFFFFFE00
  | .toLen => 0
  | .count16 => 0xFFFF0000
  | .u32 => 0
  | .s32 => 0
  | .sym3 => 0xFFFFFFF8

/-- RESMASK of a row (R96): the UNIT field if the unit is single, the A field if A is "-", and the reserved B bits. -/
def Opcode.resMask (o : Opcode) : CmdWord :=
  0#8 ++ (if o.unitKind = .single then 0xFF#8 else 0#8) ++ (if o.takesA then 0#16 else 0xFFFF#16) ++ o.layout.reserved

/-- The opcode an OPC byte names, if any (R95, R97). -/
def Opcode.ofCode (b : BitVec 8) : Option Opcode := Opcode.all.find? (fun o => o.code == b)

/-- The OPC field [63:56] (R91). -/
def fieldOpc (w : CmdWord) : BitVec 8 := w.extractLsb' 56 8

/-- The UNIT field [55:48] (R91). -/
def fieldUnit (w : CmdWord) : BitVec 8 := w.extractLsb' 48 8

/-- The A field [47:32] (R91). -/
def fieldA (w : CmdWord) : BitVec 16 := w.extractLsb' 32 16

/-- The B field [31:0] (R91). -/
def fieldB (w : CmdWord) : Word := w.extractLsb' 0 32

/-- The command a row makes of its UNIT, A and B fields, each operand taken from its place in the layout (R93). -/
def Opcode.build (o : Opcode) (u a : Nat) (b : Word) : Instr :=
  match o with
  | .pixSetPixel => .pixSetPixel a (b.extractLsb' 0 24)
  | .pixSetAll => .pixSetAll (b.extractLsb' 0 24)
  | .pixFillRaw => .pixFillRaw (b.extractLsb' 0 8)
  | .pixSetOrder => .pixSetOrder (b.extractLsb' 0 8)
  | .pixTransmit => .pixTransmit
  | .pixGetPixel => .pixGetPixel a
  | .ioSetLamp => .ioSetLamp a (b.getLsbD 0)
  | .ioSetLampAll => .ioSetLampAll (b.getLsbD 0)
  | .ioGetButton => .ioGetButton a
  | .ioCountPressed => .ioCountPressed
  | .ioCountPressedRange => .ioCountPressedRange a (b.extractLsb' 0 16).toNat
  | .ioRawWrite => .ioRawWrite a (b.extractLsb' 0 8)
  | .ioRawRead => .ioRawRead a
  | .ioTransact => .ioTransact
  | .ioGetLamp => .ioGetLamp a
  | .inTransact => .inTransact
  | .inReadBit => .inReadBit a
  | .inReadByte => .inReadByte a
  | .digSetDigit => .digSetDigit a (b.extractLsb' 0 8).toNat (b.getLsbD 8)
  | .digCopySection => .digCopySection a (b.extractLsb' 16 16).toNat (b.extractLsb' 0 16).toNat
  | .digTransmit => .digTransmit
  | .digGetRaw => .digGetRaw a
  | .grpShowNumber => .grpShowNumber u a b.toNat
  | .grpShowSigned => .grpShowSigned u a b.toInt
  | .grpShowSymbol => .grpShowSymbol u (b.extractLsb' 0 3).toNat
  | .grpChase6 => .grpChase6 u a
  | .grpChase6Step => .grpChase6Step u
  | .grpChase8 => .grpChase8 u a
  | .grpChase8Step => .grpChase8Step u
  | .tglPoll => .tglPoll u
  | .tglConsumeEvent => .tglConsumeEvent u
  | .tglGetState => .tglGetState u
  | .selPoll => .selPoll u
  | .selGetState => .selGetState u
  | .selSetState => .selSetState u a
  | .nlPoll => .nlPoll u
  | .nlConsumeEvent => .nlConsumeEvent u
  | .nlGetState => .nlGetState u
  | .statRead => .statRead
  | .statClear => .statClear

/-- The decoder (R96, its first three checks, in its order): undefined OPC, then reserved bits. The UNIT range checks need
the construction's unit counts and stand with the meanings (`Machine/Ops.lean`, `withGroup` and its like): DESIGN CHOICE,
log 15. -/
def decode (w : CmdWord) : Except IllegalInfo Instr :=
  match Opcode.ofCode (fieldOpc w) with
  | none => .error .undefinedOpcode
  | some o =>
    if w &&& o.resMask ≠ 0 then .error .reservedBits
    else .ok (o.build (fieldUnit w).toNat (fieldA w).toNat (fieldB w))

/-- The word the host reads from a number: bit 0 of the number is bit 0 of the command word, every bit at or above
`nbits` is 0 (log 18). -/
def tableWord (nbits w : Nat) : CmdWord := BitVec.ofNat 64 (w % 2 ^ nbits)

/-- What the decoder reads from an instruction whose bits are `w`, numbered as spec/opcode_table.json numbers them. -/
def decodeTableWord (nbits w : Nat) : Option Instr :=
  match decode (tableWord nbits w) with
  | .ok i => some i
  | .error _ => none

/-! ### The encoder -/

/-- The four fields of a command in their places (R90). -/
def packWord (opc : BitVec 8) (u : Nat) (a : Nat) (b : Word) : CmdWord :=
  opc ++ BitVec.ofNat 8 u ++ BitVec.ofNat 16 a ++ b

/-- The opcode, UNIT, A and B of a command (R93, R95). -/
def Instr.fields : Instr → Opcode × Nat × Nat × Word
  | .pixSetPixel i c => (.pixSetPixel, 0, i, c.setWidth 32)
  | .pixSetAll c => (.pixSetAll, 0, 0, c.setWidth 32)
  | .pixFillRaw v => (.pixFillRaw, 0, 0, v.setWidth 32)
  | .pixSetOrder m => (.pixSetOrder, 0, 0, m.setWidth 32)
  | .pixTransmit => (.pixTransmit, 0, 0, 0)
  | .pixGetPixel i => (.pixGetPixel, 0, i, 0)
  | .ioSetLamp k v => (.ioSetLamp, 0, k, (BitVec.ofBool v).setWidth 32)
  | .ioSetLampAll v => (.ioSetLampAll, 0, 0, (BitVec.ofBool v).setWidth 32)
  | .ioGetButton k => (.ioGetButton, 0, k, 0)
  | .ioCountPressed => (.ioCountPressed, 0, 0, 0)
  | .ioCountPressedRange o n => (.ioCountPressedRange, 0, o, BitVec.ofNat 32 n)
  | .ioRawWrite b v => (.ioRawWrite, 0, b, v.setWidth 32)
  | .ioRawRead b => (.ioRawRead, 0, b, 0)
  | .ioTransact => (.ioTransact, 0, 0, 0)
  | .ioGetLamp k => (.ioGetLamp, 0, k, 0)
  | .inTransact => (.inTransact, 0, 0, 0)
  | .inReadBit k => (.inReadBit, 0, k, 0)
  | .inReadByte b => (.inReadByte, 0, b, 0)
  | .digSetDigit p d dp => (.digSetDigit, 0, p, (BitVec.ofBool dp ++ BitVec.ofNat 8 d).setWidth 32)
  | .digCopySection f t n => (.digCopySection, 0, f, BitVec.ofNat 16 t ++ BitVec.ofNat 16 n)
  | .digTransmit => (.digTransmit, 0, 0, 0)
  | .digGetRaw p => (.digGetRaw, 0, p, 0)
  | .grpShowNumber g dpPos v => (.grpShowNumber, g, dpPos, BitVec.ofNat 32 v)
  | .grpShowSigned g dpPos v => (.grpShowSigned, g, dpPos, BitVec.ofInt 32 v)
  | .grpShowSymbol g k => (.grpShowSymbol, g, 0, BitVec.ofNat 32 k)
  | .grpChase6 g q => (.grpChase6, g, q, 0)
  | .grpChase6Step g => (.grpChase6Step, g, 0, 0)
  | .grpChase8 g q => (.grpChase8, g, q, 0)
  | .grpChase8Step g => (.grpChase8Step, g, 0, 0)
  | .tglPoll u => (.tglPoll, u, 0, 0)
  | .tglConsumeEvent u => (.tglConsumeEvent, u, 0, 0)
  | .tglGetState u => (.tglGetState, u, 0, 0)
  | .selPoll u => (.selPoll, u, 0, 0)
  | .selGetState u => (.selGetState, u, 0, 0)
  | .selSetState u st => (.selSetState, u, st, 0)
  | .nlPoll u => (.nlPoll, u, 0, 0)
  | .nlConsumeEvent u => (.nlConsumeEvent, u, 0, 0)
  | .nlGetState u => (.nlGetState, u, 0, 0)
  | .statRead => (.statRead, 0, 0, 0)
  | .statClear => (.statClear, 0, 0, 0)

/-- The opcode of a command. -/
def Instr.opcode (i : Instr) : Opcode := i.fields.1

/-- The one word of a well-formed command (R90, R93, R98). -/
def encode (i : Instr) : CmdWord :=
  packWord i.fields.1.code i.fields.2.1 i.fields.2.2.1 i.fields.2.2.2

/-- The core command a pseudo-instruction expands to (R102). -/
def Pseudo.expand : Pseudo → Instr
  | .pixBlank => .pixFillRaw 0
  | .ioLampsOff => .ioSetLampAll false
  | .ioLampsOn => .ioSetLampAll true
  | .grpClear g => .grpShowSymbol g 0
  | .selClear u => .selSetState u 0xFFFF

end Sys2Proof
end

