-- ==== Sys2Proof/Config.lean ====
section
/-! DEFINITION. What an SRPE is constructed from: the parameters of 00_scope.md R7, their legality (R8), the free
values of the model, and the one configuration `State.reset` is constructed from. -/

namespace Sys2Proof

/-- The five byte-addressed data spaces (20_memory.md R60). -/
inductive Space where
  | pix | ioOut | ioIn | inBuf | dig
  deriving DecidableEq, Repr

/-- The four channels of 40_shift_channel.md R120; also the unit ids of an Update event (R305).
`inp` is the spec's IN. -/
inductive Channel where
  | pix | io | inp | dig
  deriving DecidableEq, Repr

/-- The latch lines of 20_memory.md R70. -/
inductive Latch where
  | ioLatIn | ioLatOut | inLat | digLat
  deriving DecidableEq, Repr

/-- PIX_TRANSPORT (R7, 40_shift_channel.md R127). -/
inductive Transport where
  | bitbang | hwserial
  deriving DecidableEq, Repr

/-- LATCH_POL of one line: the active level (R7, 20_memory.md R72). -/
inductive LatchPol where
  | activeHigh | activeLow
  deriving DecidableEq, Repr

/-- DP_BACKFILL: the three readings of the decimal-point back-fill (44_digits.md R224). -/
inductive DpBackfill where
  | dpDigitOnly | countToDp | none
  deriving DecidableEq, Repr

/-- GRP_START[g] and GRP_SIZE[g] (R7). -/
structure GroupCfg where
  start : Nat
  size : Nat
  deriving DecidableEq, Repr

/-- SEL_OFFSET[u], SEL_COUNT[u] and SEL_DEFAULT[u] (R7). -/
structure SelectCfg where
  offset : Nat
  count : Nat
  defaultOn : Bool := false
  deriving DecidableEq, Repr

/-- NL_BIT[u] and NL_N[u] (R7). -/
structure NoLampCfg where
  bit : Nat
  states : Nat := 2
  deriving DecidableEq, Repr

/-- LATCH_POL[l] for the four latch lines (R7, D44). -/
structure LatchPols where
  ioLatIn : LatchPol
  ioLatOut : LatchPol
  inLat : LatchPol
  digLat : LatchPol
  deriving DecidableEq, Repr

/-- The construction parameters of R7, in its order. A field with a default has the default of R7's table; the
others are OPEN there. Counts NGRP, NTGL, NSEL and NNL are the lengths of the four lists. -/
structure Config where
  /-- NPIX -/
  npix : Nat
  /-- GROUP_SIZE -/
  groupSize : Nat := 1
  /-- PIX_TRANSPORT -/
  pixTransport : Transport := .bitbang
  /-- PIX_AUTO -/
  pixAuto : Bool := false
  /-- NB_IO -/
  nbIo : Nat
  /-- IO_AUTO -/
  ioAuto : Bool := false
  /-- IO_INV_IN -/
  ioInvIn : Bool := false
  /-- IO_INV_OUT -/
  ioInvOut : Bool := false
  /-- NB_IN -/
  nbIn : Nat
  /-- IN_AUTO -/
  inAuto : Bool := false
  /-- NDIG -/
  ndig : Nat
  /-- DIG_AUTO -/
  digAuto : Bool := false
  /-- the digit groups; NGRP is its length -/
  groups : List GroupCfg := []
  /-- TGL_BIT; NTGL is its length -/
  toggles : List Nat := []
  /-- the select machines; NSEL is its length -/
  selects : List SelectCfg := []
  /-- the no-lamp toggles; NNL is its length -/
  noLamps : List NoLampCfg := []
  /-- SEG_DIGIT[0..9] -/
  segDigit : Vector Byte 10
  /-- SEG_DASH -/
  segDash : Byte
  /-- SEG_TEST -/
  segTest : Byte
  /-- SYM_ERROR, reading order -/
  symError : List Byte
  /-- SYM_FOUL, reading order -/
  symFoul : List Byte
  /-- CHASE6[0..5] -/
  chase6 : Vector Byte 6
  /-- CHASE8[0..7] -/
  chase8 : Vector Byte 8
  /-- DP_BACKFILL -/
  dpBackfill : DpBackfill := .dpDigitOnly
  /-- LATCH_POL[l] -/
  latchPol : LatchPols
  /-- T_FRAME_IDLE in microseconds (R345; DESIGN CHOICE of the unit, log 21) -/
  tFrameIdleUs : Nat := 1000
  /-- DEBUG_OOR_NOTIFY -/
  debugOorNotify : Bool := false
  /-- MAX_BUF_BYTES -/
  maxBufBytes : Nat
  deriving DecidableEq, Repr

/-! ### Free values: no proof can see what these are -/

/-- The reset draw of byte `a` of a space: unspecified, one draw per byte (10_state.md R45, R46). Free value, log 4. -/
opaque Config.resetDraw : Space → Nat → Byte

/-- `DrawBit(ch)`: the `n`-th bit drawn on channel `ch` since construction, where the state's pin source does not know
it (20_memory.md R74). Free value, log 5. -/
opaque Config.inputDraw : Channel → Nat → Bool

/-- The level of channel `ch`'s SDO pin at reset: unspecified (R45). Free value, log 8. -/
opaque Config.sdoDraw : Channel → Bool

/-- What reading byte `a` of a space gives in a state whose buffer does not list that byte. No constructed machine is
ever in such a state. Free value, log 11. -/
opaque Config.absentByte : Space → Nat → Byte

/-- What the lane code 3, which "names no lane" (10_state.md R31), gives. COLOR_ORDER never holds it. Free value,
log 11. -/
opaque Config.noLane : Byte

/-! ### Legality (R7, R8) -/

/-- The buffer bytes R8 counts: 3·NPIX + 2·NB_IO + NB_IN + NDIG. -/
def Config.bufBytes (c : Config) : Nat := 3 * c.npix + 2 * c.nbIo + c.nbIn + c.ndig

/-- GRP_SIZE ≥ 1, GRP_START + GRP_SIZE ≤ NDIG. -/
def GroupCfg.legal (c : Config) (g : GroupCfg) : Bool := decide (1 ≤ g.size ∧ g.start + g.size ≤ c.ndig)

/-- SEL_COUNT ≥ 1, offset + count ≤ 8·NB_IO, count ≤ 65534. -/
def SelectCfg.legal (c : Config) (u : SelectCfg) : Bool :=
  decide (1 ≤ u.count ∧ u.offset + u.count ≤ 8 * c.nbIo ∧ u.count ≤ 65534)

/-- NL_BIT < 8·NB_IO, NL_N in 1..65535. -/
def NoLampCfg.legal (c : Config) (u : NoLampCfg) : Bool :=
  decide (u.bit < 8 * c.nbIo ∧ 1 ≤ u.states ∧ u.states ≤ 65535)

/-- The sizes of R7's table are in their ranges. -/
def Config.sizesLegal (c : Config) : Bool :=
  decide (1 ≤ c.npix ∧ c.npix ≤ 65535 ∧ 1 ≤ c.groupSize ∧ c.groupSize ≤ 65535 ∧ 1 ≤ c.nbIo ∧ c.nbIo ≤ 8191 ∧
    1 ≤ c.nbIn ∧ c.nbIn ≤ 8191 ∧ 1 ≤ c.ndig ∧ c.ndig ≤ 65535 ∧ 1000 ≤ c.tFrameIdleUs ∧ 1 ≤ c.maxBufBytes)

/-- The unit lists of R7's table are in their ranges. -/
def Config.unitsLegal (c : Config) : Bool :=
  decide (c.groups.length ≤ 256) && c.groups.all (GroupCfg.legal c) &&
  decide (c.toggles.length ≤ 256) && c.toggles.all (fun k => decide (k < 8 * c.nbIo)) &&
  decide (c.selects.length ≤ 256) && c.selects.all (SelectCfg.legal c) &&
  decide (c.noLamps.length ≤ 256) && c.noLamps.all (NoLampCfg.legal c)

/-- The pattern tables meet R7 and 44_digits.md R212: table entries and the dash carry no decimal point, messages have
1 to 16 bytes. -/
def Config.tablesLegal (c : Config) : Bool :=
  c.segDigit.toList.all (fun b => !b.getLsbD 0) && !c.segDash.getLsbD 0 &&
  decide (1 ≤ c.symError.length ∧ c.symError.length ≤ 16) &&
  decide (1 ≤ c.symFoul.length ∧ c.symFoul.length ≤ 16)

/-- Configuration legality (R8): every parameter is in the "legal values" column of R7. -/
def Config.legal (c : Config) : Bool := c.sizesLegal && c.unitsLegal && c.tablesLegal

/-! ### The configuration of `State.reset` -/

/-- The configuration the machine after reset is constructed from. R7 leaves the sizes, bindings, polarities and the
capacity OPEN and gives NGRP, NTGL, NSEL and NNL the default 0; these values are a DESIGN CHOICE (log 2), with at least
one unit of every kind, so that every command of the opcode map can complete. The pattern tables are the reference
pattern tables REF of 93_implementation_defined.md, marked there as general knowledge: PRESUMED (log 3). Every other parameter has R7's
default. -/
def Config.reference : Config where
  npix := 4
  nbIo := 2
  nbIn := 2
  ndig := 6
  groups := [⟨0, 4⟩, ⟨4, 2⟩]
  toggles := [0, 1]
  selects := [{ offset := 4, count := 3 }]
  noLamps := [{ bit := 8 }]
  segDigit := #v[0xFC, 0x60, 0xDA, 0xF2, 0x66, 0xB6, 0xBE, 0xE0, 0xFE, 0xF6]
  segDash := 0x02
  segTest := 0xFF
  symError := [0x9E, 0x0A, 0x0A]
  symFoul := [0x8E, 0xFC, 0x7C, 0x1C]
  chase6 := #v[0x80, 0x40, 0x20, 0x10, 0x08, 0x04]
  chase8 := #v[0x80, 0x40, 0x02, 0x08, 0x10, 0x20, 0x02, 0x04]
  latchPol := ⟨.activeHigh, .activeHigh, .activeHigh, .activeHigh⟩
  maxBufBytes := 65536

end Sys2Proof
end

