-- ==== Sys2Proof/Machine/Wire.lean ====
section
/-! DEFINITION. The wire trace's events, the pins, and the environment's input bits (spec 10_state.md R42, R43,
20_memory.md R70-R74). -/

namespace Sys2Proof.Machine

/-- The event kinds of R70. `none` in a cell stands for the spec's "-". -/
inductive Event where
  /-- `Cell(ch, dout, din)` (R71) -/
  | cell (ch : Channel) (dout din : Option Bool)
  /-- `LatchPulse(l)` (R72) -/
  | latchPulse (l : Latch)
  /-- `LatchAssert(l)` (R72) -/
  | latchAssert (l : Latch)
  /-- `LatchRelease(l)` (R72) -/
  | latchRelease (l : Latch)
  /-- `FrameIdle(PIX)` (R73) -/
  | frameIdle
  /-- `IrqHold(v)` (R306) -/
  | irqHold (v : Bool)
  /-- `Update(unit)` (R305) -/
  | update (u : Channel)
  deriving DecidableEq, Repr

/-- The levels of the output pins of R42. UPDATE is a strobe and has no level between events (log 14). -/
structure Pins where
  pixSdo : Bool
  pixSck : Bool
  ioSdo : Bool
  ioSck : Bool
  ioLatIn : Bool
  ioLatOut : Bool
  inSck : Bool
  inLat : Bool
  digSdo : Bool
  digSck : Bool
  digLat : Bool
  irqHold : Bool
  deriving DecidableEq, Repr

/-- The level of a latch line when it is active: LATCH_POL[l] (R72). -/
def activeLevel (p : LatchPols) (l : Latch) : Bool :=
  match l with
  | .ioLatIn => p.ioLatIn == .activeHigh
  | .ioLatOut => p.ioLatOut == .activeHigh
  | .inLat => p.inLat == .activeHigh
  | .digLat => p.digLat == .activeHigh

/-- Drive latch line `l` to a level. -/
def Pins.setLatch (pins : Pins) (l : Latch) (v : Bool) : Pins :=
  match l with
  | .ioLatIn => { pins with ioLatIn := v }
  | .ioLatOut => { pins with ioLatOut := v }
  | .inLat => { pins with inLat := v }
  | .digLat => { pins with digLat := v }

/-- A cell leaves SCK low and, where it drives a bit, holds that bit on SDO (R71, R43). -/
def Pins.clockCell (pins : Pins) (ch : Channel) (dout : Option Bool) : Pins :=
  match ch with
  | .pix => { pins with pixSck := false, pixSdo := dout.getD pins.pixSdo }
  | .io => { pins with ioSck := false, ioSdo := dout.getD pins.ioSdo }
  | .inp => { pins with inSck := false }
  | .dig => { pins with digSck := false, digSdo := dout.getD pins.digSdo }

/-- The pins after an event (R71-R73, R306). A pulse ends at the inactive level; a frame idle keeps PIX_SCK low. -/
def Pins.drive (p : LatchPols) (pins : Pins) : Event → Pins
  | .cell ch dout _ => pins.clockCell ch dout
  | .latchPulse l => pins.setLatch l (!activeLevel p l)
  | .latchAssert l => pins.setLatch l (activeLevel p l)
  | .latchRelease l => pins.setLatch l (!activeLevel p l)
  | .frameIdle => { pins with pixSck := false }
  | .irqHold v => { pins with irqHold := v }
  | .update _ => pins

/-- Every pin with an idle level is at it (R43): SCK low, latch lines inactive, IRQ_HOLD 0. -/
def Pins.isIdle (p : LatchPols) (pins : Pins) : Bool :=
  !pins.pixSck && !pins.ioSck && !pins.inSck && !pins.digSck &&
  (pins.ioLatIn == !activeLevel p .ioLatIn) && (pins.ioLatOut == !activeLevel p .ioLatOut) &&
  (pins.inLat == !activeLevel p .inLat) && (pins.digLat == !activeLevel p .digLat) && !pins.irqHold

/-- The pins right after construction (R45). The SDO levels are unspecified: free values (log 8). -/
def Pins.atReset (p : LatchPols) : Pins where
  pixSdo := Config.sdoDraw .pix
  pixSck := false
  ioSdo := Config.sdoDraw .io
  ioSck := false
  ioLatIn := !activeLevel p .ioLatIn
  ioLatOut := !activeLevel p .ioLatOut
  inSck := false
  inLat := !activeLevel p .inLat
  digSdo := Config.sdoDraw .dig
  digSck := false
  digLat := !activeLevel p .digLat
  irqHold := false

/-- The input bits the environment presents on one data-in line: those already known, oldest first, and how many were
drawn so far. A bit beyond the known ones is a free value (R74, log 5). The MODEL's own field. -/
structure PinSource where
  pending : List Bool
  drawn : Nat
  deriving DecidableEq, Repr

/-- `DrawBit(ch)` (R13, R74): the next input bit, and the source after it. -/
def PinSource.draw (ch : Channel) (p : PinSource) : Bool × PinSource :=
  match p.pending with
  | d :: rest => (d, ⟨rest, p.drawn + 1⟩)
  | [] => (Config.inputDraw ch p.drawn, ⟨[], p.drawn + 1⟩)

/-- `n` draws in a row, first drawn first. -/
def PinSource.drawN (ch : Channel) : Nat → PinSource → List Bool × PinSource
  | 0, p => ([], p)
  | n + 1, p => ((p.draw ch).1 :: (PinSource.drawN ch n (p.draw ch).2).1, (PinSource.drawN ch n (p.draw ch).2).2)

end Sys2Proof.Machine
end

