-- ==== Sys2Proof/Machine/Construct.lean ====
section
/-! DEFINITION. The reset values of the control registers (spec 10_state.md R30-R35, R45). -/

namespace Sys2Proof.Machine

/-- PIX_CFG after construction: {GROUP_SIZE, 14'b0, PIX_TRANSPORT, PIX_AUTO} (R30, R45). -/
def pixCfgReset (c : Config) : Word :=
  BitVec.ofNat 16 c.groupSize ++ 0#14 ++ BitVec.ofBool (c.pixTransport == .hwserial) ++ BitVec.ofBool c.pixAuto

/-- COLOR_ORDER after construction: 0x24, RGB (R31, R45). -/
def colorOrderReset : Byte := 0x24

/-- IO_CFG after construction: {29'b0, IO_INV_OUT, IO_INV_IN, IO_AUTO} (R32, R45). -/
def ioCfgReset (c : Config) : Word :=
  0#29 ++ BitVec.ofBool c.ioInvOut ++ BitVec.ofBool c.ioInvIn ++ BitVec.ofBool c.ioAuto

/-- IN_CFG after construction: {31'b0, IN_AUTO} (R33, R45). -/
def inCfgReset (c : Config) : Word := 0#31 ++ BitVec.ofBool c.inAuto

/-- DIG_CFG after construction: {31'b0, DIG_AUTO} (R34, R45). -/
def digCfgReset (c : Config) : Word := 0#31 ++ BitVec.ofBool c.digAuto

/-- Buffer allocation fails (R8, R331 step 2). -/
def allocFails (c : Config) : Bool := decide (c.maxBufBytes < c.bufBytes)

end Sys2Proof.Machine
end

