-- ==== Sys2Proof/Machine/Memory.lean ====
section
/-! DEFINITION. A buffer as a list of (address, byte) cells, and the operations on it (spec 20_memory.md R60-R66). -/

namespace Sys2Proof.Machine

/-- A buffer: its cells, addresses strictly rising. A buffer of n bytes lists every address 0..n−1 from construction
on (each at its reset draw, R331 step 5); an address it does not list does not exist and has no value (log 25). -/
abbrev Memory := List Host.Cell

/-- The addresses a buffer lists. -/
def Memory.addrs (m : Memory) : List Nat := m.map Prod.fst

/-- The canonical form: addresses strictly rising. (No entry equals what an unlisted address reads as, since that
is no value at all.) -/
def Memory.wf (m : Memory) : Bool := decide (m.addrs.Pairwise (· < ·))

/-- `MemRead(S, a, 1)` (R12): the byte at `a`, none where the address does not exist. -/
def Memory.read? : Memory → Nat → Option Byte
  | [], _ => none
  | c :: m, a => if c.1 = a then some c.2 else Memory.read? m a

/-- Replace the byte at `a` by `f` of it. The listed addresses never change (R28: no command reaches a byte outside its
buffer). -/
def Memory.modify (m : Memory) (a : Nat) (f : Byte → Byte) : Memory :=
  m.map fun c => if c.1 = a then (c.1, f c.2) else c

/-- `MemWrite(S, a, 1, v)` (R12). -/
def Memory.write (m : Memory) (a : Nat) (v : Byte) : Memory := m.modify a fun _ => v

/-- `S[a] <- v` for each pair of a list, in its order. -/
def Memory.writeAll (m : Memory) (l : List (Nat × Byte)) : Memory := l.foldl (fun m p => m.write p.1 p.2) m

/-- Every byte of the buffer becomes `v`. -/
def Memory.fill (m : Memory) (v : Byte) : Memory := m.map fun c => (c.1, v)

/-- A buffer of `n` bytes, byte `a` at its reset draw `draw a` (R45). -/
def Memory.buffer (n : Nat) (draw : Nat → Byte) : Memory := (List.range n).map fun a => (a, draw a)

/-- `b` with bit `j` made `v`, the other bits kept (R66). -/
def setBit (b : Byte) (j : Nat) (v : Bool) : Byte :=
  if v then b ||| (1#8 <<< j) else b &&& ~~~(1#8 <<< j)

/-- The number of 1 bits of a byte (R11). -/
def popcount (b : Byte) : Nat := (List.range 8).countP fun j => b.getLsbD j

end Sys2Proof.Machine
end

