-- ==== Sys2Proof/Machine/State.lean ====
section
/-! DEFINITION. The machine's state, its stops and the machine right after reset (spec 10_state.md, 70_reset_and_hazards.md). -/

namespace Sys2Proof.Machine

/-- The counters of a digit group: CHASE6_POS[g] and CHASE8_POS[g] (R36). -/
structure ChaseState where
  pos6 : Fin 6
  pos8 : Fin 8
  deriving DecidableEq, Repr

/-- A toggle machine: TGL_STATE[u], TGL_LATCH[u], TGL_CHANGED[u] (R37). -/
structure ToggleState where
  state : Bool
  latch : Bool
  changed : Bool
  deriving DecidableEq, Repr

/-- A no-lamp toggle: NL_STATE[u], NL_LATCH[u], NL_CHANGED[u] (R39). -/
structure NoLampState where
  state : Nat
  latch : Bool
  changed : Bool
  deriving DecidableEq, Repr

/-- The label of a command's outcome (00_scope.md R14, 60_exceptions.md R300). A label of the model: the hardware
records no info and callers cannot tell a rejected call from a successful one (R301, R302; log 7). -/
inductive CmdOutcome where
  | complete
  | rejected
  | illegal (info : IllegalInfo)
  deriving DecidableEq, Repr

/-- The state of an SRPE (R20), its configuration, its pins, and the model's own fields for what its environment and
its host do. -/
structure State where
  /-- the construction parameters (00_scope.md R7); no step changes them (log 1) -/
  cfg : Config
  /-- `halted` (R40) -/
  halted : Bool
  /-- PIX (R23) -/
  pix : Memory
  /-- IOOUT (R24) -/
  ioOut : Memory
  /-- IOIN (R25) -/
  ioIn : Memory
  /-- INB (R26) -/
  inBuf : Memory
  /-- DIG (R27) -/
  dig : Memory
  /-- CR0 PIX_CFG (R30) -/
  pixCfg : Word
  /-- CR1 COLOR_ORDER (R31) -/
  colorOrder : Byte
  /-- CR2 IO_CFG (R32) -/
  ioCfg : Word
  /-- CR3 IN_CFG (R33) -/
  inCfg : Word
  /-- CR4 DIG_CFG (R34) -/
  digCfg : Word
  /-- CR5 STATUS (R35) -/
  status : Word
  /-- the group counters (R36) -/
  chase : List ChaseState
  /-- the toggle machines (R37) -/
  toggles : List ToggleState
  /-- SEL_STATE[u], `none` the sentinel RESET (R38) -/
  selects : List (Option Nat)
  /-- the no-lamp toggles (R39) -/
  noLamps : List NoLampState
  /-- the output pins (R42, R43) -/
  pins : Pins
  /-- the 32-bit RESULT the command port presents (R44, R94; reset value log 7) -/
  result : Word
  /-- MODEL: the label of the last command's outcome, none before the first (R14; log 7) -/
  outcome : Option CmdOutcome
  /-- MODEL: the wire trace, oldest event first (R70; log 13) -/
  trace : List Event
  /-- MODEL: the environment's bits on IO_SDI (R74; log 5) -/
  ioPins : PinSource
  /-- MODEL: the environment's bits on IN_SDI (R74; log 5) -/
  inPins : PinSource
  /-- MODEL: the command words the host has yet to present, in its order (R6, R44; log 6) -/
  host : List CmdWord
  deriving DecidableEq, Repr

/-- The reasons a step stops with a fault. -/
inductive Fault where
  /-- Raised by `step` alone, on a halted block: "no step is possible" (60_exceptions.md R303, treatment "stuck" of I11).
  Safe: the hardware takes no command either (log 9). -/
  | halted
  deriving DecidableEq, Repr

/-- The reasons a step is refused. -/
inductive Refusal where
  /-- Raised by an arm of `exec` whose command has no meaning yet (none is left). Safe. -/
  | notModelled (mnemonic : String)
  /-- Raised by `step` alone, on a state whose configuration breaks the legal values of R7: "not an SRPE instance. The
  model refuses it as a configuration; it is not a run" (R8, I12). Safe (log 10). -/
  | illegalConfiguration
  deriving DecidableEq, Repr

/-- Construction (70_reset_and_hazards.md R330-R332): the machine right after reset, from its parameters and the reset
draw of every buffer byte. It emits no event (R332). -/
def State.construct (c : Config) (draw : Space → Nat → Byte) : State where
  cfg := c
  halted := allocFails c
  pix := Memory.buffer (3 * c.npix) (draw .pix)
  ioOut := Memory.buffer c.nbIo (draw .ioOut)
  ioIn := Memory.buffer c.nbIo (draw .ioIn)
  inBuf := Memory.buffer c.nbIn (draw .inBuf)
  dig := Memory.buffer c.ndig (draw .dig)
  pixCfg := pixCfgReset c
  colorOrder := colorOrderReset
  ioCfg := ioCfgReset c
  inCfg := inCfgReset c
  digCfg := digCfgReset c
  status := 0
  chase := c.groups.map fun _ => ⟨0, 0⟩
  toggles := c.toggles.map fun _ => ⟨false, false, false⟩
  selects := c.selects.map fun _ => none
  noLamps := c.noLamps.map fun _ => ⟨0, false, false⟩
  pins := Pins.atReset c.latchPol
  result := 0
  outcome := none
  trace := []
  ioPins := ⟨[], 0⟩
  inPins := ⟨[], 0⟩
  host := []

/-- The machine right after reset: the construction from `Config.reference` (log 2, 3) with the free reset draws
(R46, log 4). -/
def State.reset : State := State.construct Config.reference Config.resetDraw

end Sys2Proof.Machine
end

