-- ==== Sys2Proof/Machine/Flags.lean ====
section
/-! DEFINITION. Every flag computation of the SRPE (10_state.md R41): the STATUS bits and the button machines' edge
latches and event flags. -/

namespace Sys2Proof.Machine

/-- STATUS with ILLEGAL set (R35, 60_exceptions.md R302). -/
def setIllegal (st : Word) : Word := st ||| 0x1

/-- STATUS after a rejected call: OOR set only when DEBUG_OOR_NOTIFY = 1 (R35, R301). -/
def setOor (c : Config) (st : Word) : Word := if c.debugOorNotify then st ||| 0x2 else st

/-- STATUS with ILLEGAL and OOR cleared (46_status.md R281). -/
def clearFlags (st : Word) : Word := st &&& 0xFFFFFFFC

/-- `edge <- p AND NOT latch` (45_buttons.md R252, R262): pressed at this poll, not at the previous one. -/
def pressEdge (p latch : Bool) : Bool := p && !latch

/-- A toggle machine after a poll that sees its button at `p` (R252). -/
def ToggleState.poll (t : ToggleState) (p : Bool) : ToggleState where
  state := if pressEdge p t.latch then !t.state else t.state
  latch := p
  changed := if pressEdge p t.latch then true else t.changed

/-- A no-lamp toggle of `n` states after a poll that sees its button at `p` (R262). -/
def NoLampState.poll (t : NoLampState) (n : Nat) (p : Bool) : NoLampState where
  state := if pressEdge p t.latch then (t.state + 1) % n else t.state
  latch := p
  changed := if pressEdge p t.latch then true else t.changed

end Sys2Proof.Machine
end

