-- ==== Sys2Proof/Machine/Operands.lean ====
section
/-! DEFINITION. The operand forms: where an index points (20_memory.md R62, R63), the colour lanes (41_pixel.md R140),
the segment encoder (44_digits.md R211) and the fields of the control registers (10_state.md R30-R34). -/

namespace Sys2Proof.Machine

/-! ### Buffers by space, byte and bit -/

/-- The buffer of a space (R60). -/
def State.space (s : State) : Space → Memory
  | .pix => s.pix
  | .ioOut => s.ioOut
  | .ioIn => s.ioIn
  | .inBuf => s.inBuf
  | .dig => s.dig

/-- `S[a]` (R12). A byte the buffer does not list is a free value; no command of a constructed machine reads one
(R28, log 11). -/
def State.byte (s : State) (sp : Space) (a : Nat) : Byte :=
  ((s.space sp).read? a).getD (Config.absentByte sp a)

/-- `BitOf(S, k)`: bit k mod 8 of byte k div 8 (R63). -/
def State.bit (s : State) (sp : Space) (k : Nat) : Bool := (s.byte sp (k / 8)).getLsbD (k % 8)

/-- `ButtonBit(k)` (42_ioboard.md R170). -/
def State.buttonBit (s : State) (k : Nat) : Bool := s.bit .ioIn k

/-- `LampBit(k)` (R170). -/
def State.lampBit (s : State) (k : Nat) : Bool := s.bit .ioOut k

/-! ### Control register fields -/

/-- PIX_CFG.AUTO (R30). -/
def State.pixAuto (s : State) : Bool := s.pixCfg.getLsbD 0

/-- PIX_CFG.TRANSPORT (R30): 0 BITBANG, 1 HWSERIAL. -/
def State.pixTransport (s : State) : Transport := if s.pixCfg.getLsbD 1 then .hwserial else .bitbang

/-- PIX_CFG.GROUP_SIZE (R30). -/
def State.groupSize (s : State) : Nat := (s.pixCfg.extractLsb' 16 16).toNat

/-- IO_CFG.AUTO (R32). -/
def State.ioAuto (s : State) : Bool := s.ioCfg.getLsbD 0

/-- IO_CFG.INV_IN (R32). -/
def State.ioInvIn (s : State) : Bool := s.ioCfg.getLsbD 1

/-- IO_CFG.INV_OUT (R32). -/
def State.ioInvOut (s : State) : Bool := s.ioCfg.getLsbD 2

/-- IN_CFG.AUTO (R33). -/
def State.inAuto (s : State) : Bool := s.inCfg.getLsbD 0

/-- DIG_CFG.AUTO (R34). -/
def State.digAuto (s : State) : Bool := s.digCfg.getLsbD 0

/-- NBITS_IO = 8·NB_IO (R170). -/
def State.nbitsIo (s : State) : Nat := 8 * s.cfg.nbIo

/-! ### Colour lanes -/

/-- SELk of a lane map, two bits each (R31). -/
def laneSel (m : Byte) (k : Nat) : Nat := (m.extractLsb' (2 * k) 2).toNat

/-- lane(c, code): 0 is R = c[23:16], 1 is G = c[15:8], 2 is B = c[7:0] (R62). Code 3 names no lane (R31): COLOR_ORDER
never holds it, and what it would give is a free value (log 11). -/
def lane (c : Colour) (code : Nat) : Byte :=
  if code = 0 then c.extractLsb' 16 8
  else if code = 1 then c.extractLsb' 8 8
  else if code = 2 then c.extractLsb' 0 8
  else Config.noLane

/-- Perm(c)[k] (R140, R62): the byte at place k of a pixel in wire order. -/
def permByte (m : Byte) (c : Colour) (k : Nat) : Byte := lane c (laneSel m k)

/-- L[x] after `L[SEL0] <- P0; L[SEL1] <- P1; L[SEL2] <- P2` (R140). A lane no selector names, which no legal lane map
leaves, is a free value (log 11). -/
def permInvLane (m : Byte) (p0 p1 p2 : Byte) (x : Nat) : Byte :=
  if laneSel m 2 = x then p2
  else if laneSel m 1 = x then p1
  else if laneSel m 0 = x then p0
  else Config.noLane

/-- PermInv(P0, P1, P2) = {L[0], L[1], L[2]} (R140). -/
def permInv (m : Byte) (p0 p1 p2 : Byte) : Colour :=
  permInvLane m p0 p1 p2 0 ++ permInvLane m p0 p1 p2 1 ++ permInvLane m p0 p1 p2 2

/-- The LANE_MAP value of an order (R31). -/
def laneMapOf : ColorOrder → Byte
  | .rgb => 0x24
  | .rbg => 0x18
  | .grb => 0x21
  | .gbr => 0x09
  | .brg => 0x12
  | .bgr => 0x06

/-- The six legal LANE_MAP values (R31, 41_pixel.md R146). -/
def legalLaneMaps : List Byte := [0x24, 0x18, 0x21, 0x09, 0x12, 0x06]

/-! ### Segment patterns -/

/-- BLANK (44_digits.md R211). -/
def blank : Byte := 0x00

/-- Enc(d, dp) (R211): the table entry of a digit, blank above 9, bit 0 the decimal point. -/
def enc (c : Config) (d : Nat) (dp : Bool) : Byte :=
  ((if h : d < 10 then c.segDigit[d] else blank) &&& 0xFE) ||| (BitVec.ofBool dp).setWidth 8

/-- GPos(g, i) (R219). -/
def gpos (g : GroupCfg) (i : Nat) : Nat := g.start + i

/-- A RESULT that is a bit (R94). -/
def bitWord (b : Bool) : Word := (BitVec.ofBool b).setWidth 32

/-- The mask of an inversion flag (R181). -/
def invMask (inv : Bool) : Byte := if inv then 0xFF else 0x00

end Sys2Proof.Machine
end

