-- ==== Sys2Proof/Machine/Ops.lean ====
section
/-! DEFINITION. The shared operations: fetching a command, the three outcomes (the SRPE's whole exception machinery,
60_exceptions.md R300-R309), emitting events, and the unit numbers. -/

namespace Sys2Proof.Machine

/-- What a meaning answers. -/
abbrev Answer := Host.Outcome State Fault Refusal

/-! ### The command port -/

/-- The next command word the host presents, and the state that has taken it (R44). -/
def State.takeCommand (s : State) : Option (CmdWord × State) :=
  match s.host with
  | [] => none
  | w :: rest => some (w, { s with host := rest })

/-! ### Outcomes (R14, R300) -/

/-- The command completes with RESULT `v` (R94). -/
def State.completed (s : State) (v : Word) : State := { s with result := v, outcome := some .complete }

/-- `reject()` (R301): nothing is written and no event is emitted; RESULT 0; STATUS.OOR only when DEBUG_OOR_NOTIFY = 1. -/
def State.rejected (s : State) : State :=
  { s with result := 0, outcome := some .rejected, status := setOor s.cfg s.status }

/-- `raise Illegal(info)` (R302): STATUS.ILLEGAL set, RESULT 0, nothing else changes. -/
def State.illegal (s : State) (info : IllegalInfo) : State :=
  { s with result := 0, outcome := some (.illegal info), status := setIllegal s.status }

/-! ### The wire -/

/-- `Emit(e)` for each event of a list in order (R13, R70): the trace grows and the pins follow (R71-R73). -/
def State.emit (s : State) (es : List Event) : State :=
  { s with trace := s.trace ++ es, pins := es.foldl (Pins.drive s.cfg.latchPol) s.pins }

/-! ### Unit numbers (30_encoding.md R92, R96): a UNIT at or above the count of its kind is Illegal(BAD_UNIT) -/

/-- The configuration and counters of group `g`. -/
def withGroup (g : Nat) (s : State) (f : GroupCfg → ChaseState → Answer) : Answer :=
  match s.cfg.groups[g]?, s.chase[g]? with
  | some gc, some ch => f gc ch
  | _, _ => .next (s.illegal .badUnit)

/-- The bit and state of toggle `u`. -/
def withToggle (u : Nat) (s : State) (f : Nat → ToggleState → Answer) : Answer :=
  match s.cfg.toggles[u]?, s.toggles[u]? with
  | some k, some t => f k t
  | _, _ => .next (s.illegal .badUnit)

/-- The configuration and selection of select `u`. -/
def withSelect (u : Nat) (s : State) (f : SelectCfg → Option Nat → Answer) : Answer :=
  match s.cfg.selects[u]?, s.selects[u]? with
  | some sc, some st => f sc st
  | _, _ => .next (s.illegal .badUnit)

/-- The configuration and state of no-lamp toggle `u`. -/
def withNoLamp (u : Nat) (s : State) (f : NoLampCfg → NoLampState → Answer) : Answer :=
  match s.cfg.noLamps[u]?, s.noLamps[u]? with
  | some nc, some t => f nc t
  | _, _ => .next (s.illegal .badUnit)

/-! ### Named writes -/

/-- IOOUT's lamp bit `k` becomes `v`; the other seven bits of its byte stay (R66, R171). -/
def State.setLampBit (s : State) (k : Nat) (v : Bool) : State :=
  { s with ioOut := s.ioOut.modify (k / 8) (fun b => setBit b (k % 8) v) }

/-- Write a toggle machine's state. -/
def State.setToggle (s : State) (u : Nat) (t : ToggleState) : State := { s with toggles := s.toggles.set u t }

/-- Write a select machine's selection. -/
def State.setSelect (s : State) (u : Nat) (st : Option Nat) : State := { s with selects := s.selects.set u st }

/-- Write a no-lamp toggle's state. -/
def State.setNoLamp (s : State) (u : Nat) (t : NoLampState) : State := { s with noLamps := s.noLamps.set u t }

/-- Write a group's counters. -/
def State.setChase (s : State) (g : Nat) (c : ChaseState) : State := { s with chase := s.chase.set g c }

/-- Write the digit buffer. -/
def State.setDig (s : State) (m : Memory) : State := { s with dig := m }

/-- Write the pixel buffer. -/
def State.setPix (s : State) (m : Memory) : State := { s with pix := m }

/-- Write the lamp buffer. -/
def State.setIoOut (s : State) (m : Memory) : State := { s with ioOut := m }

end Sys2Proof.Machine
end

