-- ==== Sys2Proof/Machine/Channel.lean ====
section
/-! DEFINITION. The shift channel's operations (40_shift_channel.md R121-R127) and the four transactions built on them
(41_pixel.md R147, 42_ioboard.md R182, 43_inputchain.md R200, 44_digits.md R217). -/

namespace Sys2Proof.Machine

/-- The bits of a byte in wire order, bit 7 first (R64). -/
def msbBits (v : Byte) : List Bool :=
  [v.getLsbD 7, v.getLsbD 6, v.getLsbD 5, v.getLsbD 4, v.getLsbD 3, v.getLsbD 2, v.getLsbD 1, v.getLsbD 0]

/-- The byte built from received bits, the first received becoming bit 7 (R64, R122). -/
def byteOfMsb (l : List Bool) : Byte := l.foldl (fun r d => (r <<< 1) ||| (BitVec.ofBool d).setWidth 8) 0

/-- The events of ShiftOutByte(ch, v) (R121). -/
def shiftOutByte (ch : Channel) (v : Byte) : List Event := (msbBits v).map fun d => .cell ch (some d) none

/-- The events of one pixel byte under either transport: "functionally identical" (R127). -/
def shiftPixByte (t : Transport) (v : Byte) : List Event :=
  match t with
  | .bitbang => shiftOutByte .pix v
  | .hwserial => shiftOutByte .pix v

/-- What an eight-cell input shift gives: its events, the received byte, the pin source after it. -/
structure Shifted where
  cells : List Event
  byte : Byte
  pins : PinSource
  deriving DecidableEq, Repr

/-- ShiftXByte(IO, v) (R122): eight cells, each driving a bit of `v` and sampling one. -/
def shiftXByte (v : Byte) (p : PinSource) : Shifted where
  cells := List.zipWith (fun o d => .cell .io (some o) (some d)) (msbBits v) (p.drawN .io 8).1
  byte := byteOfMsb (p.drawN .io 8).1
  pins := (p.drawN .io 8).2

/-- ShiftInByte(IN) (R123): eight cells, each sampling a bit. -/
def shiftInByte (p : PinSource) : Shifted where
  cells := (p.drawN .inp 8).1.map fun d => .cell .inp none (some d)
  byte := byteOfMsb (p.drawN .inp 8).1
  pins := (p.drawN .inp 8).2

/-! ### Pixel transmit (R147) -/

/-- The three stored bytes of pixel `i` (R62). -/
def State.pixelBytes (s : State) (i : Nat) : List Byte := [s.byte .pix (3 * i), s.byte .pix (3 * i + 1), s.byte .pix (3 * i + 2)]

/-- The bytes of a frame: pixels ascending, each GROUP_SIZE times (R65, R147). -/
def State.pixFrame (s : State) : List Byte :=
  (List.range s.cfg.npix).flatMap fun i => (List.replicate s.groupSize (s.pixelBytes i)).flatten

/-- PixTransmit() (R147). -/
def State.pixTransmit (s : State) : State :=
  s.emit ([.irqHold true] ++ s.pixFrame.flatMap (shiftPixByte s.pixTransport) ++
    [.irqHold false, .frameIdle, .update .pix])

/-- PixAutoTail() (R140). -/
def State.pixAutoTail (s : State) : State := if s.pixAuto then s.pixTransmit else s

/-! ### I/O-board transaction (R182) -/

/-- One board of IoTransact: shift its output byte, inverted as configured, and store the byte received in the same
cells, inverted as configured, at the same index (R181, R182). -/
def State.ioShiftBoard (s : State) (b : Nat) : State :=
  { s.emit (shiftXByte (s.byte .ioOut b ^^^ invMask s.ioInvOut) s.ioPins).cells with
    ioIn := s.ioIn.write b ((shiftXByte (s.byte .ioOut b ^^^ invMask s.ioInvOut) s.ioPins).byte ^^^ invMask s.ioInvIn)
    ioPins := (shiftXByte (s.byte .ioOut b ^^^ invMask s.ioInvOut) s.ioPins).pins }

/-- IoTransact() (R182): boards NB_IO−1 down to 0 (R180). -/
def State.ioTransact (s : State) : State :=
  ((List.range s.cfg.nbIo).reverse.foldl State.ioShiftBoard (s.emit [.latchAssert .ioLatIn])).emit
    [.latchRelease .ioLatIn, .latchPulse .ioLatOut, .update .io]

/-- IoAutoPre() (R170). -/
def State.ioAutoPre (s : State) : State := if s.ioAuto then s.ioTransact else s

/-- IoAutoPost() (R170). -/
def State.ioAutoPost (s : State) : State := if s.ioAuto then s.ioTransact else s

/-! ### Input-chain transaction (R200) -/

/-- One board of InTransact (R200); no inversion. -/
def State.inShiftBoard (s : State) (b : Nat) : State :=
  { s.emit (shiftInByte s.inPins).cells with
    inBuf := s.inBuf.write b (shiftInByte s.inPins).byte
    inPins := (shiftInByte s.inPins).pins }

/-- InTransact() (R200): boards 0 up to NB_IN−1. -/
def State.inTransact (s : State) : State :=
  ((List.range s.cfg.nbIn).foldl State.inShiftBoard (s.emit [.latchAssert .inLat])).emit
    [.latchRelease .inLat, .update .inp]

/-- InAutoPre() (43_inputchain.md R204). -/
def State.inAutoPre (s : State) : State := if s.inAuto then s.inTransact else s

/-! ### Digit transmit (R217) -/

/-- The bytes of a digit transmit: DIG[NDIG−1] down to DIG[0] (R65, R217). -/
def State.digFrame (s : State) : List Byte := (List.range s.cfg.ndig).reverse.map fun i => s.byte .dig i

/-- DigTransmit() (R217). -/
def State.digTransmit (s : State) : State :=
  s.emit (s.digFrame.flatMap (shiftOutByte .dig) ++ [.latchPulse .digLat, .update .dig])

/-- DigAutoTail() (44_digits.md R215). -/
def State.digAutoTail (s : State) : State := if s.digAuto then s.digTransmit else s

end Sys2Proof.Machine
end

