-- ==== Sys2Proof/Machine/Buttons.lean ====
section
/-! DEFINITION. The button machines' commands (45_buttons.md). -/

namespace Sys2Proof.Machine

/-! ### Toggle -/

/-- TGL_POLL (R252): the lamp is written at every poll; in auto mode one transaction before the read and one after the
lamp write. -/
def execTglPoll (u : Nat) (s : State) : Answer :=
  withToggle u s fun k t =>
    .next (((s.ioAutoPre.setToggle u (t.poll (s.ioAutoPre.buttonBit k))).setLampBit k
      (t.poll (s.ioAutoPre.buttonBit k)).state).ioAutoPost.completed
        (bitWord (pressEdge (s.ioAutoPre.buttonBit k) t.latch)))

/-- TGL_CONSUME_EVENT (R253): read and clear. -/
def execTglConsumeEvent (u : Nat) (s : State) : Answer :=
  withToggle u s fun _ t => .next ((s.setToggle u { t with changed := false }).completed (bitWord t.changed))

/-- TGL_GET_STATE (R254). -/
def execTglGetState (u : Nat) (s : State) : Answer :=
  withToggle u s fun _ t => .next (s.completed (bitWord t.state))

/-! ### Select -/

/-- The lamp a select machine shows at index `i` of its range (R255). -/
def selLamp (sc : SelectCfg) (st : Option Nat) (i : Nat) : Bool :=
  match st with
  | some x => decide (i = x)
  | none => sc.defaultOn

/-- SelLamps(u) for the selection `st` (R255). -/
def State.selLamps (s : State) (sc : SelectCfg) (st : Option Nat) : State :=
  (List.range sc.count).foldl (fun s i => s.setLampBit (sc.offset + i) (selLamp sc st i)) s

/-- The select scan (R256): ascending, the last pressed index wins. -/
def State.selScan (s : State) (sc : SelectCfg) : Option Nat :=
  (List.range sc.count).foldl (fun found i => if s.buttonBit (sc.offset + i) then some i else found) none

/-- SEL_STATE after a scan that found `found` (R257): the found index if any, else unchanged. -/
def selNext (found st : Option Nat) : Option Nat :=
  match found with
  | some i => some i
  | none => st

/-- SEL_POLL's result (R257): 1 when the selection changed. -/
def selChanged (found st : Option Nat) : Bool := found.isSome && !decide (found = st)

/-- SEL_POLL (R257): the lamps are refreshed at every poll. -/
def execSelPoll (u : Nat) (s : State) : Answer :=
  withSelect u s fun sc st =>
    .next (((s.ioAutoPre.setSelect u (selNext (s.ioAutoPre.selScan sc) st)).selLamps sc
      (selNext (s.ioAutoPre.selScan sc) st)).ioAutoPost.completed
        (bitWord (selChanged (s.ioAutoPre.selScan sc) st)))

/-- The encoding of SEL_STATE in results: RESET is 0xFFFF (10_state.md R38, R258). -/
def selWord (st : Option Nat) : Word :=
  match st with
  | some i => BitVec.ofNat 32 i
  | none => 0x0000FFFF

/-- SEL_GET_STATE (R258). -/
def execSelGetState (u : Nat) (s : State) : Answer :=
  withSelect u s fun _ st => .next (s.completed (selWord st))

/-- SEL_SET_STATE (R259): no lamp refresh, no transaction. -/
def execSelSetState (u st : Nat) (s : State) : Answer :=
  withSelect u s fun sc _ =>
    if st = 0xFFFF then .next ((s.setSelect u none).completed 0)
    else if st < sc.count then .next ((s.setSelect u (some st)).completed 0)
    else .next s.rejected

/-! ### No-lamp toggle -/

/-- NL_POLL (R262): no lamp write, no transaction after. -/
def execNlPoll (u : Nat) (s : State) : Answer :=
  withNoLamp u s fun nc t =>
    .next ((s.ioAutoPre.setNoLamp u (t.poll nc.states (s.ioAutoPre.buttonBit nc.bit))).completed
      (bitWord (pressEdge (s.ioAutoPre.buttonBit nc.bit) t.latch)))

/-- NL_CONSUME_EVENT (R263): read and clear. -/
def execNlConsumeEvent (u : Nat) (s : State) : Answer :=
  withNoLamp u s fun _ t => .next ((s.setNoLamp u { t with changed := false }).completed (bitWord t.changed))

/-- NL_GET_STATE (R264). -/
def execNlGetState (u : Nat) (s : State) : Answer :=
  withNoLamp u s fun _ t => .next (s.completed (BitVec.ofNat 32 t.state))

end Sys2Proof.Machine
end

