-- ==== Sys2Proof/Machine/Digits.lean ====
section
/-! DEFINITION. The digit chain's commands (44_digits.md R210-R218). -/

namespace Sys2Proof.Machine

/-- DIG_SET_DIGIT (R213). -/
def execDigSetDigit (p d : Nat) (dp : Bool) (s : State) : Answer :=
  if p ≥ s.cfg.ndig then .next s.rejected
  else .next ((s.setDig (s.dig.write p (enc s.cfg d dp))).digAutoTail.completed 0)

/-- The writes of DIG_COPY_SECTION: DIG[t+j] <- DIG[f+j] for j = 0 .. n−1 (R214). The source lies wholly below the
destination, so no write changes a byte still to be read. -/
def State.copyCells (s : State) (f t n : Nat) : List (Nat × Byte) :=
  (List.range n).map fun j => (t + j, s.byte .dig (f + j))

/-- DIG_COPY_SECTION (R214). -/
def execDigCopySection (f t n : Nat) (s : State) : Answer :=
  if f + n > t then .next s.rejected
  else if t + n > s.cfg.ndig then .next s.rejected
  else .next ((s.setDig (s.dig.writeAll (s.copyCells f t n))).digAutoTail.completed 0)

/-- DIG_TRANSMIT (R216). -/
def execDigTransmit (s : State) : Answer := .next (s.digTransmit.completed 0)

/-- DIG_GET_RAW (R218): no transmit, in any mode. -/
def execDigGetRaw (p : Nat) (s : State) : Answer :=
  if p ≥ s.cfg.ndig then .next s.rejected
  else .next (s.completed ((s.byte .dig p).setWidth 32))

end Sys2Proof.Machine
end

