-- ==== Sys2Proof/Machine/Groups.lean ====
section
/-! DEFINITION. The digit groups' commands (44_digits.md R219-R232). -/

namespace Sys2Proof.Machine

/-- GW(g, i, v) (R219): a write inside the group, else a no-op. -/
def groupWrite (g : GroupCfg) (m : Memory) (i : Nat) (v : Byte) : Memory :=
  if i < g.size then m.write (gpos g i) v else m

/-- GW for each (position, byte) of a list, in its order. -/
def groupWriteAll (g : GroupCfg) (m : Memory) (l : List (Nat × Byte)) : Memory :=
  l.foldl (fun m p => groupWrite g m p.1 p.2) m

/-- GW(g, i, v) for i = 0 .. S−1. -/
def groupFill (g : GroupCfg) (m : Memory) (v : Byte) : Memory :=
  groupWriteAll g m ((List.range g.size).map fun i => (i, v))

/-! ### Numbers -/

/-- The digits the repeat loop of R221 writes, lowest first: at least one, at most S. (S = 0 is no legal group, R7; the
model then writes none, log 16.) -/
def showDigits : Nat → Nat → List Nat
  | 0, _ => []
  | S + 1, v => (v % 10) :: (if v / 10 = 0 then [] else showDigits S (v / 10))

/-- BackFill(g, count, p) (R224). -/
def backFill (c : Config) (g : GroupCfg) (m : Memory) (count p : Nat) : Memory :=
  match c.dpBackfill with
  | .dpDigitOnly => if p ≥ count then groupWrite g m p (enc c 0 false) else m
  | .countToDp => groupWriteAll g m ((List.range' count (p + 1 - count)).map fun i => (i, enc c 0 false))
  | .none => m

/-- `DIG[GPos(g, p)] <- DIG[GPos(g, p)] OR 0x01` (R222). -/
def setPoint (g : GroupCfg) (m : Memory) (p : Nat) : Memory := m.modify (gpos g p) (· ||| 0x01)

/-- The digit buffer after ShowNumberCore(g, v, dpPos) (R221). -/
def showNumberDig (c : Config) (g : GroupCfg) (m : Memory) (v dpPos : Nat) : Memory :=
  let ds := showDigits g.size v
  let count := ds.length
  let m := groupWriteAll g m (ds.zipIdx.map fun d => (d.2, enc c d.1 false))
  let m := groupWriteAll g m ((List.range' count (g.size - count)).map fun i => (i, blank))
  if dpPos ≠ 0 ∧ dpPos ≤ g.size then setPoint g (backFill c g m count (dpPos - 1)) (dpPos - 1) else m

/-- What ShowNumberCore(g, v, dpPos) returns: max(count, dpPos) (R221). -/
def showNumberCount (g : GroupCfg) (v dpPos : Nat) : Nat := max (showDigits g.size v).length dpPos

/-- GRP_SHOW_NUMBER (R223). -/
def execGrpShowNumber (g dpPos v : Nat) (s : State) : Answer :=
  withGroup g s fun gc _ =>
    .next ((s.setDig (showNumberDig s.cfg gc s.dig v dpPos)).digAutoTail.completed
      (BitVec.ofNat 32 (showNumberCount gc v dpPos)))

/-- The digit buffer after the number and the sign of GRP_SHOW_SIGNED (R225). -/
def showSignedDig (c : Config) (g : GroupCfg) (m : Memory) (v : Int) (dpPos : Nat) : Memory :=
  if v < 0 ∧ showNumberCount g v.natAbs dpPos < g.size then
    groupWrite g (showNumberDig c g m v.natAbs dpPos) (showNumberCount g v.natAbs dpPos) c.segDash
  else showNumberDig c g m v.natAbs dpPos

/-- The sign overflow flag of GRP_SHOW_SIGNED (R225). -/
def signOverflow (g : GroupCfg) (v : Int) (dpPos : Nat) : Bool :=
  decide (v < 0) && !decide (showNumberCount g v.natAbs dpPos < g.size)

/-- GRP_SHOW_SIGNED (R225). -/
def execGrpShowSigned (g dpPos : Nat) (v : Int) (s : State) : Answer :=
  withGroup g s fun gc _ =>
    .next ((s.setDig (showSignedDig s.cfg gc s.dig v dpPos)).digAutoTail.completed (bitWord (signOverflow gc v dpPos)))

/-! ### Symbols -/

/-- Place(g, seq) (R226): slot j from the left is position S−1−j; centred, or the leading bytes dropped. -/
def place (g : GroupCfg) (m : Memory) (seq : List Byte) : Memory :=
  if g.size ≥ seq.length then
    groupWriteAll g m (seq.zipIdx.map fun b => (g.size - 1 - ((g.size - seq.length) / 2 + b.2), b.1))
  else
    groupWriteAll g m ((seq.drop (seq.length - g.size)).zipIdx.map fun b => (g.size - 1 - b.2, b.1))

/-- The digit buffer after GRP_SHOW_SYMBOL of kind `k` ≤ 4 (R227). -/
def showSymbolDig (c : Config) (g : GroupCfg) (m : Memory) (k : Nat) : Memory :=
  match k with
  | 0 => groupFill g m blank
  | 1 => place g (groupFill g m blank) c.symError
  | 2 => place g (groupFill g m blank) c.symFoul
  | 3 => groupFill g (groupFill g m blank) c.segDash
  | _ => groupFill g (groupFill g m blank) c.segTest

/-- GRP_SHOW_SYMBOL (R227). -/
def execGrpShowSymbol (g k : Nat) (s : State) : Answer :=
  withGroup g s fun gc _ =>
    if k > 4 then .next s.rejected
    else .next ((s.setDig (showSymbolDig s.cfg gc s.dig k)).digAutoTail.completed 0)

/-! ### Chase animations (R228) -/

/-- GRP_CHASE6 (R229): the counter is neither read nor written. -/
def execGrpChase6 (g q : Nat) (s : State) : Answer :=
  withGroup g s fun gc _ =>
    if h : q < 6 then .next ((s.setDig (groupFill gc s.dig s.cfg.chase6[q])).digAutoTail.completed 0)
    else .next s.rejected

/-- GRP_CHASE6_STEP (R230): write, then advance modulo 6. -/
def execGrpChase6Step (g : Nat) (s : State) : Answer :=
  withGroup g s fun gc ch =>
    .next (((s.setDig (groupFill gc s.dig s.cfg.chase6[ch.pos6])).setChase g { ch with pos6 := ch.pos6 + 1 }).digAutoTail.completed 0)

/-- GRP_CHASE8 (R231): the counter is neither read nor written. -/
def execGrpChase8 (g q : Nat) (s : State) : Answer :=
  withGroup g s fun gc _ =>
    if h : q < 8 then .next ((s.setDig (groupFill gc s.dig s.cfg.chase8[q])).digAutoTail.completed 0)
    else .next s.rejected

/-- GRP_CHASE8_STEP (R232): write, then advance modulo 8. -/
def execGrpChase8Step (g : Nat) (s : State) : Answer :=
  withGroup g s fun gc ch =>
    .next (((s.setDig (groupFill gc s.dig s.cfg.chase8[ch.pos8])).setChase g { ch with pos8 := ch.pos8 + 1 }).digAutoTail.completed 0)

end Sys2Proof.Machine
end

