-- ==== Sys2Proof/Machine/InputChain.lean ====
section
/-! DEFINITION. The input-chain unit's commands (43_inputchain.md). -/

namespace Sys2Proof.Machine

/-- IN_TRANSACT (R201). -/
def execInTransact (s : State) : Answer := .next (s.inTransact.completed 0)

/-- IN_READ_BIT (R202). -/
def execInReadBit (k : Nat) (s : State) : Answer :=
  if k ≥ 8 * s.cfg.nbIn then .next s.rejected
  else .next (s.inAutoPre.completed (bitWord (s.inAutoPre.bit .inBuf k)))

/-- IN_READ_BYTE (R203). -/
def execInReadByte (b : Nat) (s : State) : Answer :=
  if b ≥ s.cfg.nbIn then .next s.rejected
  else .next (s.inAutoPre.completed ((s.inAutoPre.byte .inBuf b).setWidth 32))

end Sys2Proof.Machine
end

