-- ==== Sys2Proof/Machine/IoBoard.lean ====
section
/-! DEFINITION. The I/O-board unit's commands (42_ioboard.md). -/

namespace Sys2Proof.Machine

/-- IO_SET_LAMP (R171). -/
def execIoSetLamp (k : Nat) (v : Bool) (s : State) : Answer :=
  if k ≥ s.nbitsIo then .next s.rejected
  else .next ((s.setLampBit k v).ioAutoPost.completed 0)

/-- IO_SET_LAMP_ALL (R172). -/
def execIoSetLampAll (v : Bool) (s : State) : Answer :=
  .next ((s.setIoOut (s.ioOut.writeAll
    ((List.range s.cfg.nbIo).map fun b => (b, if v then 0xFF else 0x00)))).ioAutoPost.completed 0)

/-- IO_GET_BUTTON (R173). -/
def execIoGetButton (k : Nat) (s : State) : Answer :=
  if k ≥ s.nbitsIo then .next s.rejected
  else .next (s.ioAutoPre.completed (bitWord (s.ioAutoPre.buttonBit k)))

/-- The population count of the whole input buffer (R174). -/
def State.countPressed (s : State) : Nat :=
  ((List.range s.cfg.nbIo).map fun b => popcount (s.byte .ioIn b)).sum

/-- IO_COUNT_PRESSED (R174). -/
def execIoCountPressed (s : State) : Answer :=
  .next (s.ioAutoPre.completed (BitVec.ofNat 32 s.ioAutoPre.countPressed))

/-- The population count of bits o .. o+n−1, clipped to the buffer (R175). -/
def State.countPressedRange (s : State) (o n : Nat) : Nat :=
  (List.range n).countP fun j => decide (o + j < s.nbitsIo) && s.buttonBit (o + j)

/-- IO_COUNT_PRESSED_RANGE (R175): clipped, never rejected. -/
def execIoCountPressedRange (o n : Nat) (s : State) : Answer :=
  .next (s.ioAutoPre.completed (BitVec.ofNat 32 (s.ioAutoPre.countPressedRange o n)))

/-- IO_RAW_WRITE (R176). -/
def execIoRawWrite (b : Nat) (v : Byte) (s : State) : Answer :=
  if b ≥ s.cfg.nbIo then .next s.rejected
  else .next ((s.setIoOut (s.ioOut.write b v)).ioAutoPost.completed 0)

/-- IO_RAW_READ (R177). -/
def execIoRawRead (b : Nat) (s : State) : Answer :=
  if b ≥ s.cfg.nbIo then .next s.rejected
  else .next (s.ioAutoPre.completed ((s.ioAutoPre.byte .ioIn b).setWidth 32))

/-- IO_TRANSACT (R178). -/
def execIoTransact (s : State) : Answer := .next (s.ioTransact.completed 0)

/-- IO_GET_LAMP (R179): no transaction, in any mode. -/
def execIoGetLamp (k : Nat) (s : State) : Answer :=
  if k ≥ s.nbitsIo then .next s.rejected
  else .next (s.completed (bitWord (s.lampBit k)))

end Sys2Proof.Machine
end

