-- ==== Sys2Proof/Machine/Pixel.lean ====
section
/-! DEFINITION. The pixel unit's commands (41_pixel.md). -/

namespace Sys2Proof.Machine

/-- The three cells PIX_SET_PIXEL and PIX_SET_ALL write for pixel `i` (20_memory.md R62). -/
def State.pixelCells (s : State) (i : Nat) (c : Colour) : List (Nat × Byte) :=
  [(3 * i, permByte s.colorOrder c 0), (3 * i + 1, permByte s.colorOrder c 1), (3 * i + 2, permByte s.colorOrder c 2)]

/-- PIX_SET_PIXEL (R141). -/
def execPixSetPixel (i : Nat) (c : Colour) (s : State) : Answer :=
  if 3 * i ≥ 3 * s.cfg.npix then .next s.rejected
  else .next (((s.setPix (s.pix.writeAll (s.pixelCells i c))).pixAutoTail).completed 0)

/-- PIX_SET_ALL (R142). -/
def execPixSetAll (c : Colour) (s : State) : Answer :=
  .next (((s.setPix (s.pix.writeAll ((List.range s.cfg.npix).flatMap fun i => s.pixelCells i c))).pixAutoTail).completed 0)

/-- PIX_FILL_RAW (R143): addresses 0 .. 3·NPIX−1. -/
def execPixFillRaw (v : Byte) (s : State) : Answer :=
  .next (((s.setPix (s.pix.writeAll ((List.range (3 * s.cfg.npix)).map fun a => (a, v)))).pixAutoTail).completed 0)

/-- PIX_SET_ORDER (R146): no transmit, in any mode. -/
def execPixSetOrder (m : Byte) (s : State) : Answer :=
  if m ∈ legalLaneMaps then .next ({ s with colorOrder := m }.completed 0)
  else .next s.rejected

/-- PIX_TRANSMIT (R148). -/
def execPixTransmit (s : State) : Answer := .next (s.pixTransmit.completed 0)

/-- PIX_GET_PIXEL (R149): no transmit, in any mode. -/
def execPixGetPixel (i : Nat) (s : State) : Answer :=
  if i ≥ s.cfg.npix then .next s.rejected
  else .next (s.completed
    ((permInv s.colorOrder (s.byte .pix (3 * i)) (s.byte .pix (3 * i + 1)) (s.byte .pix (3 * i + 2))).setWidth 32))

end Sys2Proof.Machine
end

