-- ==== Sys2Proof/Machine/StatusUnit.lean ====
section
/-! DEFINITION. The status unit's commands (46_status.md). -/

namespace Sys2Proof.Machine

/-- STAT_READ (R280): reading does not clear. -/
def execStatRead (s : State) : Answer := .next (s.completed s.status)

/-- STAT_CLEAR (R281). -/
def execStatClear (s : State) : Answer := .next ({ s with status := clearFlags s.status }.completed 0)

end Sys2Proof.Machine
end

