-- ==== Sys2Proof/Machine/Dispatch.lean ====
section
/-! DEFINITION. Which meaning each command has: one arm per constructor. -/

namespace Sys2Proof.Machine

def exec (i : Instr) (s : State) : Host.Outcome State Fault Refusal :=
  match i with
  | .pixSetPixel idx c => Sys2Proof.Machine.execPixSetPixel idx c s
  | .pixSetAll c => Sys2Proof.Machine.execPixSetAll c s
  | .pixFillRaw v => Sys2Proof.Machine.execPixFillRaw v s
  | .pixSetOrder m => Sys2Proof.Machine.execPixSetOrder m s
  | .pixTransmit => Sys2Proof.Machine.execPixTransmit s
  | .pixGetPixel idx => Sys2Proof.Machine.execPixGetPixel idx s
  | .ioSetLamp k v => Sys2Proof.Machine.execIoSetLamp k v s
  | .ioSetLampAll v => Sys2Proof.Machine.execIoSetLampAll v s
  | .ioGetButton k => Sys2Proof.Machine.execIoGetButton k s
  | .ioCountPressed => Sys2Proof.Machine.execIoCountPressed s
  | .ioCountPressedRange o n => Sys2Proof.Machine.execIoCountPressedRange o n s
  | .ioRawWrite b v => Sys2Proof.Machine.execIoRawWrite b v s
  | .ioRawRead b => Sys2Proof.Machine.execIoRawRead b s
  | .ioTransact => Sys2Proof.Machine.execIoTransact s
  | .ioGetLamp k => Sys2Proof.Machine.execIoGetLamp k s
  | .inTransact => Sys2Proof.Machine.execInTransact s
  | .inReadBit k => Sys2Proof.Machine.execInReadBit k s
  | .inReadByte b => Sys2Proof.Machine.execInReadByte b s
  | .digSetDigit p d dp => Sys2Proof.Machine.execDigSetDigit p d dp s
  | .digCopySection f t n => Sys2Proof.Machine.execDigCopySection f t n s
  | .digTransmit => Sys2Proof.Machine.execDigTransmit s
  | .digGetRaw p => Sys2Proof.Machine.execDigGetRaw p s
  | .grpShowNumber g dpPos v => Sys2Proof.Machine.execGrpShowNumber g dpPos v s
  | .grpShowSigned g dpPos v => Sys2Proof.Machine.execGrpShowSigned g dpPos v s
  | .grpShowSymbol g k => Sys2Proof.Machine.execGrpShowSymbol g k s
  | .grpChase6 g q => Sys2Proof.Machine.execGrpChase6 g q s
  | .grpChase6Step g => Sys2Proof.Machine.execGrpChase6Step g s
  | .grpChase8 g q => Sys2Proof.Machine.execGrpChase8 g q s
  | .grpChase8Step g => Sys2Proof.Machine.execGrpChase8Step g s
  | .tglPoll u => Sys2Proof.Machine.execTglPoll u s
  | .tglConsumeEvent u => Sys2Proof.Machine.execTglConsumeEvent u s
  | .tglGetState u => Sys2Proof.Machine.execTglGetState u s
  | .selPoll u => Sys2Proof.Machine.execSelPoll u s
  | .selGetState u => Sys2Proof.Machine.execSelGetState u s
  | .selSetState u st => Sys2Proof.Machine.execSelSetState u st s
  | .nlPoll u => Sys2Proof.Machine.execNlPoll u s
  | .nlConsumeEvent u => Sys2Proof.Machine.execNlConsumeEvent u s
  | .nlGetState u => Sys2Proof.Machine.execNlGetState u s
  | .statRead => Sys2Proof.Machine.execStatRead s
  | .statClear => Sys2Proof.Machine.execStatClear s

end Sys2Proof.Machine
end

