-- ==== Sys2Proof/Machine/Step.lean ====
section
/-! DEFINITION. One step of the SRPE: one whole command (00_scope.md R19, 10_state.md R44). -/

namespace Sys2Proof.Machine

/-- One step. A state whose configuration is illegal is no machine (R8); a halted block takes no command (R303); with no
word presented the engine waits and nothing changes (R315, R330; log 6); else the engine takes the next word, decodes it
in the order of 30_encoding.md R96 and executes it to its outcome. -/
def step (s : State) : Host.Outcome State Fault Refusal :=
  if !s.cfg.legal then .refused .illegalConfiguration
  else if s.halted then .fault .halted
  else
    match s.takeCommand with
    | none => .next s
    | some (w, s') =>
      match decode w with
      | .error info => .next (s'.illegal info)
      | .ok i => exec i s'

/-- `s` with the word `w` (its bits numbered as spec/opcode_table.json numbers them) as the next word the host presents.
Nothing else changes (log 6, 18). -/
def State.withFetchWord (s : State) (nbits w : Nat) : State := { s with host := tableWord nbits w :: s.host }

end Sys2Proof.Machine
end

