-- ==== Sys2Proof/Machine/Asm.lean ====
section
/-! DEFINITION. The assembler of 30_encoding.md R101 and R102: from a mnemonic and its operands to a command, and from a
written line to its word. -/

namespace Sys2Proof.Machine

/-- One written operand (R101). -/
inductive AsmOperand where
  /-- a decimal or hexadecimal number -/
  | num (v : Int)
  /-- an instance number written with its letter: `g`, `t`, `s` or `n` -/
  | unit (kind : UnitKind) (n : Nat)
  /-- a lane map by name -/
  | order (o : ColorOrder)
  /-- a symbol kind by name -/
  | symbol (k : SymbolKind)
  /-- the select state `reset` -/
  | reset
  deriving DecidableEq, Repr

/-- A written mnemonic: a command's (R95) or a pseudo-instruction's (R102). -/
inductive AsmName where
  | op (o : Opcode)
  | pixBlank
  | ioLampsOff
  | ioLampsOn
  | grpClear
  | selClear
  deriving DecidableEq, Repr

/-- The kind number of a named symbol (R93, SYM3). -/
def symbolCode : SymbolKind → Nat
  | .blank => 0
  | .error => 1
  | .foul => 2
  | .dash => 3
  | .test => 4

/-- An operand that is an unsigned number below `bound`: "Negative numbers are allowed only for the value of
`grp.show_signed`" (R101). It is read by its value, so `-0` is taken as 0: DESIGN CHOICE, log 24. -/
def asmNat (bound : Nat) : AsmOperand → Option Nat
  | .num v => if 0 ≤ v ∧ v < bound then some v.toNat else none
  | _ => none

/-- A bit, `0` or `1` (R101). It is read by its value, so `0x1`, `01` and `-0` are bits too: DESIGN CHOICE, log 24. -/
def asmBit : AsmOperand → Option Bool
  | .num v => if v = 0 then some false else if v = 1 then some true else none
  | _ => none

/-- A unit operand of the kind the command takes (R101). -/
def asmUnit (k : UnitKind) : AsmOperand → Option Nat
  | .unit k' n => if k' = k ∧ n < 256 then some n else none
  | _ => none

/-- A colour of at most 24 bits (R101). -/
def asmColour (x : AsmOperand) : Option Colour := (asmNat 0x1000000 x).map (BitVec.ofNat 24)

/-- A byte operand. -/
def asmByte (x : AsmOperand) : Option Byte := (asmNat 256 x).map (BitVec.ofNat 8)

/-- A lane map, by number or by name (R101). -/
def asmLaneMap : AsmOperand → Option Byte
  | .order o => some (laneMapOf o)
  | x => asmByte x

/-- A symbol kind, by number or by name (R101). -/
def asmSymbol : AsmOperand → Option Nat
  | .symbol k => some (symbolCode k)
  | x => asmNat 8 x

/-- A select state, by number or `reset`, which stands for 0xFFFF (R101). -/
def asmSelState : AsmOperand → Option Nat
  | .reset => some 0xFFFF
  | x => asmNat 65536 x

/-- A signed 32-bit value (R93, S32). -/
def asmSigned : AsmOperand → Option Int
  | .num v => if -2147483648 ≤ v ∧ v < 2147483648 then some v else none
  | _ => none

/-- The command of a core mnemonic and its operands in the order of the syntax column of R95; none is an assembly
error (R101). -/
def assembleOp (o : Opcode) (xs : List AsmOperand) : Option Instr :=
  match o, xs with
  | .pixSetPixel, [i, c] => do some (.pixSetPixel (← asmNat 65536 i) (← asmColour c))
  | .pixSetAll, [c] => do some (.pixSetAll (← asmColour c))
  | .pixFillRaw, [v] => do some (.pixFillRaw (← asmByte v))
  | .pixSetOrder, [m] => do some (.pixSetOrder (← asmLaneMap m))
  | .pixTransmit, [] => some .pixTransmit
  | .pixGetPixel, [i] => do some (.pixGetPixel (← asmNat 65536 i))
  | .ioSetLamp, [k, v] => do some (.ioSetLamp (← asmNat 65536 k) (← asmBit v))
  | .ioSetLampAll, [v] => do some (.ioSetLampAll (← asmBit v))
  | .ioGetButton, [k] => do some (.ioGetButton (← asmNat 65536 k))
  | .ioCountPressed, [] => some .ioCountPressed
  | .ioCountPressedRange, [a, n] => do some (.ioCountPressedRange (← asmNat 65536 a) (← asmNat 65536 n))
  | .ioRawWrite, [b, v] => do some (.ioRawWrite (← asmNat 65536 b) (← asmByte v))
  | .ioRawRead, [b] => do some (.ioRawRead (← asmNat 65536 b))
  | .ioTransact, [] => some .ioTransact
  | .ioGetLamp, [k] => do some (.ioGetLamp (← asmNat 65536 k))
  | .inTransact, [] => some .inTransact
  | .inReadBit, [k] => do some (.inReadBit (← asmNat 65536 k))
  | .inReadByte, [b] => do some (.inReadByte (← asmNat 65536 b))
  | .digSetDigit, [p, d, dp] => do some (.digSetDigit (← asmNat 65536 p) (← asmNat 256 d) (← asmBit dp))
  | .digCopySection, [f, t, n] => do some (.digCopySection (← asmNat 65536 f) (← asmNat 65536 t) (← asmNat 65536 n))
  | .digTransmit, [] => some .digTransmit
  | .digGetRaw, [p] => do some (.digGetRaw (← asmNat 65536 p))
  | .grpShowNumber, [g, v, dp] => do
      some (.grpShowNumber (← asmUnit .group g) (← asmNat 65536 dp) (← asmNat 4294967296 v))
  | .grpShowSigned, [g, v, dp] => do some (.grpShowSigned (← asmUnit .group g) (← asmNat 65536 dp) (← asmSigned v))
  | .grpShowSymbol, [g, k] => do some (.grpShowSymbol (← asmUnit .group g) (← asmSymbol k))
  | .grpChase6, [g, q] => do some (.grpChase6 (← asmUnit .group g) (← asmNat 65536 q))
  | .grpChase6Step, [g] => do some (.grpChase6Step (← asmUnit .group g))
  | .grpChase8, [g, q] => do some (.grpChase8 (← asmUnit .group g) (← asmNat 65536 q))
  | .grpChase8Step, [g] => do some (.grpChase8Step (← asmUnit .group g))
  | .tglPoll, [u] => do some (.tglPoll (← asmUnit .toggle u))
  | .tglConsumeEvent, [u] => do some (.tglConsumeEvent (← asmUnit .toggle u))
  | .tglGetState, [u] => do some (.tglGetState (← asmUnit .toggle u))
  | .selPoll, [u] => do some (.selPoll (← asmUnit .select u))
  | .selGetState, [u] => do some (.selGetState (← asmUnit .select u))
  | .selSetState, [u, v] => do some (.selSetState (← asmUnit .select u) (← asmSelState v))
  | .nlPoll, [u] => do some (.nlPoll (← asmUnit .noLamp u))
  | .nlConsumeEvent, [u] => do some (.nlConsumeEvent (← asmUnit .noLamp u))
  | .nlGetState, [u] => do some (.nlGetState (← asmUnit .noLamp u))
  | .statRead, [] => some .statRead
  | .statClear, [] => some .statClear
  | _, _ => none

/-- The assembler (R101, R102): a pseudo-instruction expands to exactly one command. -/
def assemble (name : AsmName) (xs : List AsmOperand) : Option Instr :=
  match name, xs with
  | .op o, xs => assembleOp o xs
  | .pixBlank, [] => some (Pseudo.pixBlank).expand
  | .ioLampsOff, [] => some (Pseudo.ioLampsOff).expand
  | .ioLampsOn, [] => some (Pseudo.ioLampsOn).expand
  | .grpClear, [g] => do some (Pseudo.grpClear (← asmUnit .group g)).expand
  | .selClear, [u] => do some (Pseudo.selClear (← asmUnit .select u)).expand
  | _, _ => none

/-- The word an assembled line stands for. -/
def assembleWord (name : AsmName) (xs : List AsmOperand) : Option CmdWord := (assemble name xs).map encode

/-! ### Written lines (R101; spacing and the spelling of numbers: log 24) -/

/-- A mnemonic as it is written: the "syntax" column of R95, and the pseudo-instructions of R102. -/
def AsmName.written : AsmName → String
  | .op .pixSetPixel => "pix.set_pixel"
  | .op .pixSetAll => "pix.set_all"
  | .op .pixFillRaw => "pix.fill_raw"
  | .op .pixSetOrder => "pix.set_order"
  | .op .pixTransmit => "pix.transmit"
  | .op .pixGetPixel => "pix.get_pixel"
  | .op .ioSetLamp => "io.set_lamp"
  | .op .ioSetLampAll => "io.set_lamp_all"
  | .op .ioGetButton => "io.get_button"
  | .op .ioCountPressed => "io.count_pressed"
  | .op .ioCountPressedRange => "io.count_pressed_range"
  | .op .ioRawWrite => "io.raw_write"
  | .op .ioRawRead => "io.raw_read"
  | .op .ioTransact => "io.transact"
  | .op .ioGetLamp => "io.get_lamp"
  | .op .inTransact => "in.transact"
  | .op .inReadBit => "in.read_bit"
  | .op .inReadByte => "in.read_byte"
  | .op .digSetDigit => "dig.set_digit"
  | .op .digCopySection => "dig.copy_section"
  | .op .digTransmit => "dig.transmit"
  | .op .digGetRaw => "dig.get_raw"
  | .op .grpShowNumber => "grp.show_number"
  | .op .grpShowSigned => "grp.show_signed"
  | .op .grpShowSymbol => "grp.show_symbol"
  | .op .grpChase6 => "grp.chase6"
  | .op .grpChase6Step => "grp.chase6_step"
  | .op .grpChase8 => "grp.chase8"
  | .op .grpChase8Step => "grp.chase8_step"
  | .op .tglPoll => "tgl.poll"
  | .op .tglConsumeEvent => "tgl.consume_event"
  | .op .tglGetState => "tgl.get_state"
  | .op .selPoll => "sel.poll"
  | .op .selGetState => "sel.get_state"
  | .op .selSetState => "sel.set_state"
  | .op .nlPoll => "nl.poll"
  | .op .nlConsumeEvent => "nl.consume_event"
  | .op .nlGetState => "nl.get_state"
  | .op .statRead => "stat.read"
  | .op .statClear => "stat.clear"
  | .pixBlank => "pix.blank"
  | .ioLampsOff => "io.lamps_off"
  | .ioLampsOn => "io.lamps_on"
  | .grpClear => "grp.clear"
  | .selClear => "sel.clear"

/-- Every written mnemonic. -/
def AsmName.all : List AsmName :=
  Opcode.all.map .op ++ [.pixBlank, .ioLampsOff, .ioLampsOn, .grpClear, .selClear]

/-- A digit of a base up to 16. -/
def digitValue (base : Nat) (c : Char) : Option Nat :=
  let v :=
    if 48 ≤ c.toNat ∧ c.toNat ≤ 57 then c.toNat - 48
    else if 65 ≤ c.toNat ∧ c.toNat ≤ 70 then c.toNat - 55
    else if 97 ≤ c.toNat ∧ c.toNat ≤ 102 then c.toNat - 87
    else 16
  if v < base then some v else none

/-- One digit more of a number. -/
def addDigit (base : Nat) (acc : Option Nat) (c : Char) : Option Nat :=
  match acc, digitValue base c with
  | some a, some d => some (base * a + d)
  | _, _ => none

/-- At least one digit of a base. -/
def readDigits (base : Nat) : List Char → Option Nat
  | [] => none
  | cs => cs.foldl (addDigit base) (some 0)

/-- "Numbers are decimal, or hexadecimal with a `0x` prefix" (R101), with a sign where they are negative.
DESIGN CHOICE, log 24: leading zeros are ignored, `-0` is 0, a minus sign stands before decimal digits only. -/
def readNumber : List Char → Option Int
  | '-' :: cs => (readDigits 10 cs).map fun n => -(n : Int)
  | '0' :: 'x' :: cs => (readDigits 16 cs).map fun n => (n : Int)
  | cs => (readDigits 10 cs).map fun n => (n : Int)

/-- The operands written by name (R101). -/
def asmWords : List (String × AsmOperand) :=
  [("rgb", .order .rgb), ("rbg", .order .rbg), ("grb", .order .grb), ("gbr", .order .gbr), ("brg", .order .brg),
   ("bgr", .order .bgr), ("blank", .symbol .blank), ("error", .symbol .error), ("foul", .symbol .foul),
   ("dash", .symbol .dash), ("test", .symbol .test), ("reset", .reset)]

/-- A unit: its letter and its decimal number (R101); leading zeros are ignored (DESIGN CHOICE, log 24). -/
def readUnit : List Char → Option AsmOperand
  | 'g' :: cs => (readDigits 10 cs).map (.unit .group)
  | 't' :: cs => (readDigits 10 cs).map (.unit .toggle)
  | 's' :: cs => (readDigits 10 cs).map (.unit .select)
  | 'n' :: cs => (readDigits 10 cs).map (.unit .noLamp)
  | _ => none

/-- One written operand: a name, a unit or a number (R101). -/
def readOperand (cs : List Char) : Option AsmOperand :=
  match asmWords.find? fun w => w.1.toList == cs with
  | some w => some w.2
  | none => (readUnit cs).or ((readNumber cs).map .num)

/-- Without the blanks at both ends. -/
def trimBlanks (cs : List Char) : List Char :=
  ((cs.dropWhile (· == ' ')).reverse.dropWhile (· == ' ')).reverse

/-- The parts between commas. -/
def splitCommas : List Char → List (List Char)
  | [] => [[]]
  | c :: cs =>
    match splitCommas cs with
    | [] => [[c]]
    | w :: ws => if c = ',' then [] :: w :: ws else (c :: w) :: ws

/-- The operands of a line, "separated by commas" (R101). -/
def readOperands (cs : List Char) : Option (List AsmOperand) :=
  if trimBlanks cs = [] then some [] else (splitCommas cs).mapM fun w => readOperand (trimBlanks w)

/-- The word of a written line; none is an assembly error (R101). -/
def assembleText (line : String) : Option CmdWord :=
  let cs := trimBlanks line.toList
  match AsmName.all.find? fun n => n.written.toList == cs.takeWhile (· != ' ') with
  | none => none
  | some n => do assembleWord n (← readOperands (cs.dropWhile (· != ' ')))

end Sys2Proof.Machine
end

