-- ==== Sys2Proof/Machine/Image.lean ====
section
/-! DEFINITION. The latched images of the external output chains: environment state "for observation only", which no rule
of the block reads (20_memory.md R75). Computed from the wire trace. -/

namespace Sys2Proof.Machine

/-- The bytes of a chain of `n` boards from its shift register's bits, newest bit first: board 0 holds the eight newest
bits, and the byte shifted first lies in board n−1 (R75). -/
def chainBytes (n : Nat) (bits : List Bool) : List Byte :=
  (List.range n).map fun j => byteOfMsb ((bits.drop (8 * j)).take 8).reverse

/-- An external chain: the bits in its shift registers, newest first, and what its output latches show. -/
structure Chain where
  bits : List Bool
  shown : Option (List Byte)
  deriving DecidableEq, Repr

/-- A chain of `n` boards on channel `ch` with latch line `l` sees one event. A pulse commits the last 8·n bits shifted;
what stages that no bit has reached hold is not stated, so the image is then `none` (I17, log 13). -/
def Chain.see (ch : Channel) (l : Latch) (n : Nat) (c : Chain) : Event → Chain
  | .cell ch' (some d) _ => if ch' = ch then { c with bits := (d :: c.bits).take (8 * n) } else c
  | .latchPulse l' =>
    if l' = l then { c with shown := if c.bits.length = 8 * n then some (chainBytes n c.bits) else none } else c
  | _ => c

/-- What the chain of `n` boards on channel `ch`, latched by `l`, shows after a trace (R75): board 0 first. -/
def shownImage (ch : Channel) (l : Latch) (n : Nat) (trace : List Event) : Option (List Byte) :=
  (trace.foldl (Chain.see ch l n) ⟨[], none⟩).shown

/-- What the lamp boards show (R75). -/
def State.lampImage (s : State) : Option (List Byte) := shownImage .io .ioLatOut s.cfg.nbIo s.trace

/-- What the digit chips show (R75). -/
def State.digitImage (s : State) : Option (List Byte) := shownImage .dig .digLat s.cfg.ndig s.trace

end Sys2Proof.Machine
end

