-- ==== Sys2Proof/Safety.lean ====
section
/-! DEFINITION. What claims are stated in: the invariant of a constructed machine, frames over the parts of the state, and
the rejection and unit conditions of the spec as tables of their own (60_exceptions.md R308, 30_encoding.md R92). -/

namespace Sys2Proof.Safety

open Sys2Proof.Machine

/-! ### Frames -/

/-- The parts of the state. `wire` is the trace and the pins, `port` RESULT and the outcome label. -/
inductive Part where
  | cfg | halted | pix | ioOut | ioIn | inBuf | dig | pixCfg | colorOrder | ioCfg | inCfg | digCfg | status
  | chase | toggles | selects | noLamps | wire | port | ioPins | inPins | host
  deriving DecidableEq, Repr

/-- Two states have the same part. -/
def agree (p : Part) (s t : State) : Prop :=
  match p with
  | .cfg => t.cfg = s.cfg
  | .halted => t.halted = s.halted
  | .pix => t.pix = s.pix
  | .ioOut => t.ioOut = s.ioOut
  | .ioIn => t.ioIn = s.ioIn
  | .inBuf => t.inBuf = s.inBuf
  | .dig => t.dig = s.dig
  | .pixCfg => t.pixCfg = s.pixCfg
  | .colorOrder => t.colorOrder = s.colorOrder
  | .ioCfg => t.ioCfg = s.ioCfg
  | .inCfg => t.inCfg = s.inCfg
  | .digCfg => t.digCfg = s.digCfg
  | .status => t.status = s.status
  | .chase => t.chase = s.chase
  | .toggles => t.toggles = s.toggles
  | .selects => t.selects = s.selects
  | .noLamps => t.noLamps = s.noLamps
  | .wire => t.trace = s.trace ∧ t.pins = s.pins
  | .port => t.result = s.result ∧ t.outcome = s.outcome
  | .ioPins => t.ioPins = s.ioPins
  | .inPins => t.inPins = s.inPins
  | .host => t.host = s.host

/-- Every part but those listed is the same. -/
def Frame (changed : List Part) (s t : State) : Prop := ∀ p, p ∉ changed → agree p s t

/-- What an IoTransact may change (42_ioboard.md R182): IOIN, the wire, and the environment's source of bits. -/
def ioTransactParts : List Part := [.ioIn, .wire, .ioPins]

/-- What an I/O command's own transactions add to its frame: nothing unless IO_CFG.AUTO = 1. -/
def ioAutoParts (s : State) : List Part := if s.ioAuto then ioTransactParts else []

/-- What an input-chain read's own transaction adds to its frame: nothing unless IN_CFG.AUTO = 1. -/
def inAutoParts (s : State) : List Part := if s.inAuto then [.inBuf, .wire, .inPins] else []

/-- What a pixel write's transmit adds to its frame: nothing unless PIX_CFG.AUTO = 1. -/
def pixAutoParts (s : State) : List Part := if s.pixAuto then [.wire] else []

/-- What a digit write's transmit adds to its frame: nothing unless DIG_CFG.AUTO = 1. -/
def digAutoParts (s : State) : List Part := if s.digAuto then [.wire] else []

/-- The command completed with RESULT `v` (00_scope.md R14, 30_encoding.md R94). -/
def Completes (t : State) (v : Word) : Prop := t.result = v ∧ t.outcome = some .complete

/-! ### The invariant of a constructed machine -/

/-- What holds of every constructed SRPE and is kept by every step. -/
structure Intact (s : State) : Prop where
  /-- the configuration is legal (00_scope.md R8) -/
  legal : s.cfg.legal = true
  /-- `halted` is 1 exactly when allocation failed; no command changes it (10_state.md R40) -/
  halted : s.halted = allocFails s.cfg
  /-- PIX has the bytes 0 .. 3·NPIX−1 (R23, R28) -/
  pix : s.pix.addrs = List.range (3 * s.cfg.npix)
  /-- IOOUT has the bytes 0 .. NB_IO−1 (R24, R28) -/
  ioOut : s.ioOut.addrs = List.range s.cfg.nbIo
  /-- IOIN has the bytes 0 .. NB_IO−1 (R25, R28) -/
  ioIn : s.ioIn.addrs = List.range s.cfg.nbIo
  /-- INB has the bytes 0 .. NB_IN−1 (R26, R28) -/
  inBuf : s.inBuf.addrs = List.range s.cfg.nbIn
  /-- DIG has the bytes 0 .. NDIG−1 (R27, R28) -/
  dig : s.dig.addrs = List.range s.cfg.ndig
  /-- CR0 holds its construction value (R29) -/
  pixCfg : s.pixCfg = pixCfgReset s.cfg
  /-- CR2 holds its construction value (R29) -/
  ioCfg : s.ioCfg = ioCfgReset s.cfg
  /-- CR3 holds its construction value (R29) -/
  inCfg : s.inCfg = inCfgReset s.cfg
  /-- CR4 holds its construction value (R29) -/
  digCfg : s.digCfg = digCfgReset s.cfg
  /-- COLOR_ORDER "never holds an illegal value" (R31) -/
  order : s.colorOrder ∈ legalLaneMaps
  /-- the reserved bits of STATUS read 0 (R35) -/
  statusReserved : s.status &&& 0xFFFFFFFC = 0
  /-- "When DEBUG_OOR_NOTIFY = 0, OOR is hardwired 0" (R35) -/
  statusOor : s.cfg.debugOorNotify = false → s.status.getLsbD 1 = false
  /-- every group has its counters (R36) -/
  chase : s.chase.length = s.cfg.groups.length
  /-- every toggle machine has its state (R37) -/
  toggles : s.toggles.length = s.cfg.toggles.length
  /-- every select machine has its state (R38) -/
  selects : s.selects.length = s.cfg.selects.length
  /-- SEL_STATE is an index below SEL_COUNT or RESET (R38) -/
  selectRange : ∀ (u : Nat) (sc : SelectCfg) (i : Nat),
    s.cfg.selects[u]? = some sc → s.selects[u]? = some (some i) → i < sc.count
  /-- every no-lamp toggle has its state (R39) -/
  noLamps : s.noLamps.length = s.cfg.noLamps.length
  /-- NL_STATE is below NL_N (R39) -/
  noLampRange : ∀ (u : Nat) (nc : NoLampCfg) (t : NoLampState),
    s.cfg.noLamps[u]? = some nc → s.noLamps[u]? = some t → t.state < nc.states
  /-- between commands every pin is at its idle level (R43, 60_exceptions.md R315) -/
  pins : s.pins.isIdle s.cfg.latchPol = true

/-! ### The spec's tables of conditions -/

/-- The UNIT of a command is at or above the count of its kind (30_encoding.md R92). -/
def badUnit (c : Config) : Instr → Bool
  | .grpShowNumber g _ _ | .grpShowSigned g _ _ | .grpShowSymbol g _ | .grpChase6 g _ | .grpChase6Step g
  | .grpChase8 g _ | .grpChase8Step g => decide (c.groups.length ≤ g)
  | .tglPoll u | .tglConsumeEvent u | .tglGetState u => decide (c.toggles.length ≤ u)
  | .selPoll u | .selGetState u | .selSetState u _ => decide (c.selects.length ≤ u)
  | .nlPoll u | .nlConsumeEvent u | .nlGetState u => decide (c.noLamps.length ≤ u)
  | _ => false

/-- SEL_COUNT[u] (00_scope.md R7), 0 where there is no select `u`. -/
def selCount (c : Config) (u : Nat) : Nat :=
  match c.selects[u]? with
  | some sc => sc.count
  | none => 0

/-- "The complete list of argument conditions that reject a legal command" (60_exceptions.md R308). -/
def rejects (c : Config) : Instr → Bool
  | .pixSetPixel i _ => decide (c.npix ≤ i)
  | .pixSetOrder m => !(m == 0x24 || m == 0x18 || m == 0x21 || m == 0x09 || m == 0x12 || m == 0x06)
  | .pixGetPixel i => decide (c.npix ≤ i)
  | .ioSetLamp k _ | .ioGetButton k | .ioGetLamp k => decide (8 * c.nbIo ≤ k)
  | .ioRawWrite b _ | .ioRawRead b => decide (c.nbIo ≤ b)
  | .inReadBit k => decide (8 * c.nbIn ≤ k)
  | .inReadByte b => decide (c.nbIn ≤ b)
  | .digSetDigit p _ _ | .digGetRaw p => decide (c.ndig ≤ p)
  | .digCopySection f t n => decide (f + n > t) || decide (t + n > c.ndig)
  | .grpShowSymbol _ k => decide (5 ≤ k)
  | .grpChase6 _ q => decide (6 ≤ q)
  | .grpChase8 _ q => decide (8 ≤ q)
  | .selSetState u st => decide (selCount c u ≤ st) && decide (st ≠ 0xFFFF)
  | _ => false

/-! ### Words for what the wire carries -/

/-- The eight cells of an output byte: bit 7 first, nothing received (20_memory.md R64, 40_shift_channel.md R121). -/
def outCells (ch : Channel) (v : Byte) : List Event :=
  ([7, 6, 5, 4, 3, 2, 1, 0] : List Nat).map fun k => .cell ch (some (v.getLsbD k)) none

/-- How many Update events a list of events holds (60_exceptions.md R305). -/
def updates (es : List Event) : Nat := es.countP fun e => match e with | .update _ => true | _ => false

/-- How many cells of a channel a list of events holds. -/
def cellsOf (ch : Channel) (es : List Event) : Nat := es.countP fun e => match e with | .cell c _ _ => c == ch | _ => false

/-! ### What a transaction does, said bit by bit -/

/-- The events of a pixel frame (41_pixel.md R147): pixels ascending, each GROUP_SIZE times, three bytes each; between
IrqHold(1) and IrqHold(0); then the frame idle and the update. -/
def pixFrameEvents (s : State) : List Event :=
  [.irqHold true] ++
  ((List.range s.cfg.npix).flatMap fun i => (List.range s.cfg.groupSize).flatMap fun _ =>
    ([0, 1, 2] : List Nat).flatMap fun j => outCells .pix (s.byte .pix (3 * i + j))) ++
  [.irqHold false, .frameIdle, .update .pix]

/-- The events of a digit transmit (44_digits.md R217): digits descending, then the latch pulse and the update. -/
def digFrameEvents (s : State) : List Event :=
  ((List.range s.cfg.ndig).flatMap fun j => outCells .dig (s.byte .dig (s.cfg.ndig - 1 - j))) ++
  [.latchPulse .digLat, .update .dig]

/-- The input bits an IoTransact draws, first drawn first. -/
def ioDraws (s : State) : List Bool := (s.ioPins.drawN .io (8 * s.cfg.nbIo)).1

/-- The input bits an InTransact draws, first drawn first. -/
def inDraws (s : State) : List Bool := (s.inPins.drawN .inp (8 * s.cfg.nbIn)).1

/-- The wire from `s` to `t` carries exactly the events `es`: the trace grows by them and the pins follow them
(20_memory.md R70-R73). -/
def Wired (s t : State) (es : List Event) : Prop :=
  t.trace = s.trace ++ es ∧ t.pins = es.foldl (Pins.drive s.cfg.latchPol) s.pins

/-- The events of an IoTransact (42_ioboard.md R182): cell k carries bit 7 − k mod 8 of board NB_IO−1 − k div 8, inverted
if INV_OUT, and samples the k-th draw (R180, R181; 20_memory.md R64, R65). -/
def ioTransactEvents (s : State) : List Event :=
  [.latchAssert .ioLatIn] ++
  (List.range (8 * s.cfg.nbIo)).map (fun k => .cell .io
    (some ((s.byte .ioOut (s.cfg.nbIo - 1 - k / 8)).getLsbD (7 - k % 8) ^^ s.ioInvOut))
    (some ((ioDraws s).getD k false))) ++
  [.latchRelease .ioLatIn, .latchPulse .ioLatOut, .update .io]

/-- The events of an InTransact (43_inputchain.md R200): cell k samples the k-th draw and drives nothing. -/
def inTransactEvents (s : State) : List Event :=
  [.latchAssert .inLat] ++
  (List.range (8 * s.cfg.nbIn)).map (fun k => .cell .inp none (some ((inDraws s).getD k false))) ++
  [.latchRelease .inLat, .update .inp]

/-- `t` is `s` after one IoTransact (42_ioboard.md R182), as far as IOIN, the wire and the pin source go: the draw of each
cell is stored at the bit whose lamp the cell carried, inverted if INV_IN (R181). -/
structure IoTransacted (s t : State) : Prop where
  wire : Wired s t (ioTransactEvents s)
  ioIn : ∀ b i : Nat, b < s.cfg.nbIo → i < 8 →
    (t.byte .ioIn b).getLsbD i = ((ioDraws s).getD (8 * (s.cfg.nbIo - 1 - b) + (7 - i)) false ^^ s.ioInvIn)
  source : t.ioPins = (s.ioPins.drawN .io (8 * s.cfg.nbIo)).2

/-- `t` is `s` after one InTransact (43_inputchain.md R200), as far as INB, the wire and the pin source go: board 0
receives the first eight bits, most significant first, and nothing is inverted. -/
structure InTransacted (s t : State) : Prop where
  wire : Wired s t (inTransactEvents s)
  inBuf : ∀ b i : Nat, b < s.cfg.nbIn → i < 8 →
    (t.byte .inBuf b).getLsbD i = (inDraws s).getD (8 * b + (7 - i)) false
  source : t.inPins = (s.inPins.drawN .inp (8 * s.cfg.nbIn)).2

/-- From `s` to `t` the transaction that IO_CFG.AUTO asks for has run, or nothing when AUTO = 0 (42_ioboard.md R170). RESULT
and the outcome label are not looked at. -/
def IoAuto (s t : State) : Prop :=
  if s.ioAuto = true then IoTransacted s t ∧ Frame (.port :: ioTransactParts) s t else Frame [.port] s t

/-- From `s` to `t` the transaction that IN_CFG.AUTO asks for has run, or nothing when AUTO = 0 (43_inputchain.md R204). -/
def InAuto (s t : State) : Prop :=
  if s.inAuto = true then InTransacted s t ∧ Frame [.port, .inBuf, .wire, .inPins] s t else Frame [.port] s t

/-- The events of the transmit that PIX_CFG.AUTO asks for, none when AUTO = 0 (41_pixel.md R140). -/
def pixAutoEvents (s : State) : List Event := if s.pixAuto then pixFrameEvents s else []

/-- The events of the transmit that DIG_CFG.AUTO asks for, none when AUTO = 0 (44_digits.md R215). -/
def digAutoEvents (s : State) : List Event := if s.digAuto then digFrameEvents s else []

/-- What each command may change (10_state.md R23-R27, R29, R36-R39; 20_memory.md R60), an auto unit's transactions
included. Any command may be illegal or rejected, so any may set a STATUS bit. -/
def mayChange (s : State) : Instr → List Part
  | .pixSetPixel _ _ | .pixSetAll _ | .pixFillRaw _ => [.port, .status, .pix] ++ pixAutoParts s
  | .pixSetOrder _ => [.port, .status, .colorOrder]
  | .pixTransmit | .digTransmit => [.port, .status, .wire]
  | .pixGetPixel _ | .ioGetLamp _ | .digGetRaw _ | .tglGetState _ | .selGetState _ | .nlGetState _ | .statRead | .statClear =>
    [.port, .status]
  | .ioSetLamp _ _ | .ioSetLampAll _ | .ioRawWrite _ _ => [.port, .status, .ioOut] ++ ioAutoParts s
  | .ioGetButton _ | .ioCountPressed | .ioCountPressedRange _ _ | .ioRawRead _ => [.port, .status] ++ ioAutoParts s
  | .ioTransact => [.port, .status] ++ ioTransactParts
  | .inTransact => [.port, .status, .inBuf, .wire, .inPins]
  | .inReadBit _ | .inReadByte _ => [.port, .status] ++ inAutoParts s
  | .digSetDigit _ _ _ | .digCopySection _ _ _ | .grpShowNumber _ _ _ | .grpShowSigned _ _ _ | .grpShowSymbol _ _
  | .grpChase6 _ _ | .grpChase8 _ _ => [.port, .status, .dig] ++ digAutoParts s
  | .grpChase6Step _ | .grpChase8Step _ => [.port, .status, .dig, .chase] ++ digAutoParts s
  | .tglPoll _ => [.port, .status, .toggles, .ioOut] ++ ioAutoParts s
  | .tglConsumeEvent _ => [.port, .status, .toggles]
  | .selPoll _ => [.port, .status, .selects, .ioOut] ++ ioAutoParts s
  | .selSetState _ _ => [.port, .status, .selects]
  | .nlPoll _ => [.port, .status, .noLamps] ++ ioAutoParts s
  | .nlConsumeEvent _ => [.port, .status, .noLamps]

/-! ### What a group shows, position by position -/

/-- Whether position `i` of a group shows a digit of `v`: the lowest always, another where v has that many digits
(44_digits.md R221). -/
def isDigitPos (v i : Nat) : Bool := decide (i = 0 ∨ 10 ^ i ≤ v)

/-- The number of digits a group of `S` positions shows of `v` (R221). -/
def digitCount (S v : Nat) : Nat := (List.range S).countP (isDigitPos v)

/-- The decimal point lies in the group (R221). -/
def hasPoint (S dpPos : Nat) : Bool := decide (dpPos ≠ 0 ∧ dpPos ≤ S)

/-- Whether the back-fill reading fills the otherwise blank position `i` for a decimal point at position `p` (R224). -/
def backFilled (b : DpBackfill) (p i : Nat) : Bool :=
  match b with
  | .dpDigitOnly => decide (i = p)
  | .countToDp => decide (i ≤ p)
  | .none => false

/-- The segment bits and decimal point of a digit value (R211), bit by bit: bit 0 is the point, bits 7:1 the table's. -/
def encBit (c : Config) (d : Nat) (dp : Bool) (j : Nat) : Bool :=
  if j = 0 then dp else if h : d < 10 then c.segDigit[d].getLsbD j else false

/-- Bit `j` of position `i` of a group of `S` positions showing `v` with decimal-point position `dpPos`
(R221, R222, R224). -/
def numberBit (c : Config) (S v dpPos i j : Nat) : Bool :=
  if j = 0 then hasPoint S dpPos && decide (i + 1 = dpPos)
  else if isDigitPos v i then encBit c (v / 10 ^ i % 10) false j
  else hasPoint S dpPos && backFilled c.dpBackfill (dpPos - 1) i && encBit c 0 false j

/-- The byte position `i` of a group of `S` positions shows for a message, `seq[0]` leftmost: centred with the odd slack
on the right, or its leading bytes dropped (R226). -/
def messageByte (seq : List Byte) (S i : Nat) : Byte :=
  if seq.length ≤ S then
    if (S - seq.length) / 2 ≤ S - 1 - i ∧ S - 1 - i < (S - seq.length) / 2 + seq.length
      then seq.getD (S - 1 - i - (S - seq.length) / 2) 0 else 0
  else seq.getD (seq.length - S + (S - 1 - i)) 0

/-- The byte position `i` of a group of `S` positions shows for symbol kind `k` ≤ 4 (R227). -/
def symbolByte (c : Config) (S k i : Nat) : Byte :=
  if k = 1 then messageByte c.symError S i
  else if k = 2 then messageByte c.symFoul S i
  else if k = 3 then c.segDash
  else if k = 4 then c.segTest
  else 0

/-- Address `a` lies in group `g` (R219). -/
def inGroup (g : GroupCfg) (a : Nat) : Prop := g.start ≤ a ∧ a < g.start + g.size

/-! ### The opcode map as a table -/

/-- "its OPC is undefined, meaning one of 0x00-0x0F, 0x16-0x1F, 0x29-0x2F, 0x33-0x3F, 0x44-0x4F, 0x57-0x5F, 0x69-0x6F or
0x72-0xFF" (30_encoding.md R97). -/
def undefinedOpc (b : BitVec 8) : Bool :=
  decide (b.toNat ≤ 0x0F ∨ (0x16 ≤ b.toNat ∧ b.toNat ≤ 0x1F) ∨ (0x29 ≤ b.toNat ∧ b.toNat ≤ 0x2F) ∨
    (0x33 ≤ b.toNat ∧ b.toNat ≤ 0x3F) ∨ (0x44 ≤ b.toNat ∧ b.toNat ≤ 0x4F) ∨ (0x57 ≤ b.toNat ∧ b.toNat ≤ 0x5F) ∨
    (0x69 ≤ b.toNat ∧ b.toNat ≤ 0x6F) ∨ 0x72 ≤ b.toNat)

/-- One row of the machine-readable opcode map (30_encoding.md R96): the opcode, its `match` and its `mask`. -/
structure TableRow where
  op : Opcode
  value : CmdWord
  mask : CmdWord
  deriving DecidableEq, Repr

/-- spec/opcode_table.json, row by row. -/
def tableRows : List TableRow :=
  [⟨.pixSetPixel, 0x1000000000000000, 0xFFFF0000FF000000⟩,
   ⟨.pixSetAll, 0x1100000000000000, 0xFFFFFFFFFF000000⟩,
   ⟨.pixFillRaw, 0x1200000000000000, 0xFFFFFFFFFFFFFF00⟩,
   ⟨.pixSetOrder, 0x1300000000000000, 0xFFFFFFFFFFFFFF00⟩,
   ⟨.pixTransmit, 0x1400000000000000, 0xFFFFFFFFFFFFFFFF⟩,
   ⟨.pixGetPixel, 0x1500000000000000, 0xFFFF0000FFFFFFFF⟩,
   ⟨.ioSetLamp, 0x2000000000000000, 0xFFFF0000FFFFFFFE⟩,
   ⟨.ioSetLampAll, 0x2100000000000000, 0xFFFFFFFFFFFFFFFE⟩,
   ⟨.ioGetButton, 0x2200000000000000, 0xFFFF0000FFFFFFFF⟩,
   ⟨.ioCountPressed, 0x2300000000000000, 0xFFFFFFFFFFFFFFFF⟩,
   ⟨.ioCountPressedRange, 0x2400000000000000, 0xFFFF0000FFFF0000⟩,
   ⟨.ioRawWrite, 0x2500000000000000, 0xFFFF0000FFFFFF00⟩,
   ⟨.ioRawRead, 0x2600000000000000, 0xFFFF0000FFFFFFFF⟩,
   ⟨.ioTransact, 0x2700000000000000, 0xFFFFFFFFFFFFFFFF⟩,
   ⟨.ioGetLamp, 0x2800000000000000, 0xFFFF0000FFFFFFFF⟩,
   ⟨.inTransact, 0x3000000000000000, 0xFFFFFFFFFFFFFFFF⟩,
   ⟨.inReadBit, 0x3100000000000000, 0xFFFF0000FFFFFFFF⟩,
   ⟨.inReadByte, 0x3200000000000000, 0xFFFF0000FFFFFFFF⟩,
   ⟨.digSetDigit, 0x4000000000000000, 0xFFFF0000FFFFFE00⟩,
   ⟨.digCopySection, 0x4100000000000000, 0xFFFF000000000000⟩,
   ⟨.digTransmit, 0x4200000000000000, 0xFFFFFFFFFFFFFFFF⟩,
   ⟨.digGetRaw, 0x4300000000000000, 0xFFFF0000FFFFFFFF⟩,
   ⟨.grpShowNumber, 0x5000000000000000, 0xFF00000000000000⟩,
   ⟨.grpShowSigned, 0x5100000000000000, 0xFF00000000000000⟩,
   ⟨.grpShowSymbol, 0x5200000000000000, 0xFF00FFFFFFFFFFF8⟩,
   ⟨.grpChase6, 0x5300000000000000, 0xFF000000FFFFFFFF⟩,
   ⟨.grpChase6Step, 0x5400000000000000, 0xFF00FFFFFFFFFFFF⟩,
   ⟨.grpChase8, 0x5500000000000000, 0xFF000000FFFFFFFF⟩,
   ⟨.grpChase8Step, 0x5600000000000000, 0xFF00FFFFFFFFFFFF⟩,
   ⟨.tglPoll, 0x6000000000000000, 0xFF00FFFFFFFFFFFF⟩,
   ⟨.tglConsumeEvent, 0x6100000000000000, 0xFF00FFFFFFFFFFFF⟩,
   ⟨.tglGetState, 0x6200000000000000, 0xFF00FFFFFFFFFFFF⟩,
   ⟨.selPoll, 0x6300000000000000, 0xFF00FFFFFFFFFFFF⟩,
   ⟨.selGetState, 0x6400000000000000, 0xFF00FFFFFFFFFFFF⟩,
   ⟨.selSetState, 0x6500000000000000, 0xFF000000FFFFFFFF⟩,
   ⟨.nlPoll, 0x6600000000000000, 0xFF00FFFFFFFFFFFF⟩,
   ⟨.nlConsumeEvent, 0x6700000000000000, 0xFF00FFFFFFFFFFFF⟩,
   ⟨.nlGetState, 0x6800000000000000, 0xFF00FFFFFFFFFFFF⟩,
   ⟨.statRead, 0x7000000000000000, 0xFFFFFFFFFFFFFFFF⟩,
   ⟨.statClear, 0x7100000000000000, 0xFFFFFFFFFFFFFFFF⟩]

end Sys2Proof.Safety
end

