-- ==== Sys2Proof/Certificates/Slice0/Obligations.lean ====
section
/-! DEFINITION. The statements about the SRPE, for the provers. Each docstring says which rules of spec/ it formalises. -/

open Sys2Proof Sys2Proof.Machine Sys2Proof.Safety

/-! ### Encoding (30_encoding.md) -/

/-- Decoding the word of any well-formed command gives that command: no bit of an encoding is dropped (R90, R93, R95). -/
def Obligations.DecodeOfEncode : Prop :=
  ∀ i : Instr, i.wellFormed = true → decode (encode i) = .ok i

/-- "every legal command has exactly one encoding" (R98): a word that decodes is the encoding of a well-formed command. -/
def Obligations.OneEncodingPerCommand : Prop :=
  ∀ (w : CmdWord) (i : Instr), decode w = .ok i → i.wellFormed = true ∧ encode i = w

/-- The words that decode to a command of an opcode are those its row of the machine-readable map matches (R95, R96). -/
def Obligations.DecodeFollowsOpcodeTable : Prop :=
  ∀ (w : CmdWord) (o : Opcode), (∃ i : Instr, decode w = .ok i ∧ i.opcode = o) ↔
    ∃ r ∈ tableRows, r.op = o ∧ w &&& r.mask = r.value

/-- The decoder's two refusals (R96, R97, R304): an OPC in the undefined ranges first; then a reserved bit of the row. The
last clause, that the decoder itself never answers BAD_UNIT, is the model's choice, log 15: R96 and R304 make the UNIT
check part of decoding, and the model runs it, in the same order, at the start of the meaning (`OutOfRangeUnitIsIllegal`
states it there). -/
def Obligations.DecodeRefusesByName : Prop :=
  ∀ w : CmdWord,
    (decode w = .error .undefinedOpcode ↔ undefinedOpc (w.extractLsb' 56 8) = true) ∧
    (decode w = .error .reservedBits ↔
      ∃ r ∈ tableRows, w.extractLsb' 56 8 = r.value.extractLsb' 56 8 ∧ w &&& r.mask ≠ r.value) ∧
    decode w ≠ .error .badUnit

/-- The three worked encodings (R103): each line assembles to its word, which encodes its command and decodes to it. -/
def Obligations.WorkedEncodings : Prop :=
  (assembleText "pix.set_pixel 1, 0x00FF80" = some 0x100000010000FF80 ∧
    encode (.pixSetPixel 1 0x00FF80) = 0x100000010000FF80 ∧ decode 0x100000010000FF80 = .ok (.pixSetPixel 1 0x00FF80)) ∧
  (assembleText "grp.show_signed g2, -5, 0" = some 0x51020000FFFFFFFB ∧
    encode (.grpShowSigned 2 0 (-5)) = 0x51020000FFFFFFFB ∧ decode 0x51020000FFFFFFFB = .ok (.grpShowSigned 2 0 (-5))) ∧
  (assembleText "dig.copy_section 0, 2, 3" = some 0x4100000000020003 ∧
    encode (.digCopySection 0 2 3) = 0x4100000000020003 ∧ decode 0x4100000000020003 = .ok (.digCopySection 0 2 3))

/-- Each pseudo-instruction expands to exactly one command, the one of R102's table. -/
def Obligations.PseudoInstructionsExpand : Prop :=
  assemble .pixBlank [] = some (.pixFillRaw 0) ∧
  assemble .pixBlank [] = assemble (.op .pixFillRaw) [.num 0] ∧
  assemble .ioLampsOff [] = assemble (.op .ioSetLampAll) [.num 0] ∧ assemble .ioLampsOff [] = some (.ioSetLampAll false) ∧
  assemble .ioLampsOn [] = assemble (.op .ioSetLampAll) [.num 1] ∧ assemble .ioLampsOn [] = some (.ioSetLampAll true) ∧
  ∀ n : Nat, n < 256 →
    assemble .grpClear [.unit .group n] = assemble (.op .grpShowSymbol) [.unit .group n, .symbol .blank] ∧
    assemble .grpClear [.unit .group n] = some (.grpShowSymbol n 0) ∧
    assemble .selClear [.unit .select n] = assemble (.op .selSetState) [.unit .select n, .reset] ∧
    assemble .selClear [.unit .select n] = some (.selSetState n 0xFFFF)

/-! ### The step and its outcomes (60_exceptions.md) -/

/-- A step runs the command that the presented word decodes to, on the state that has taken the word (R96, 10_state.md
R44). -/
def Obligations.StepRunsDecodedCommand : Prop :=
  ∀ (s : State) (w : CmdWord) (rest : List CmdWord) (i : Instr),
    s.cfg.legal = true → s.halted = false → s.host = w :: rest → decode w = .ok i →
    step s = exec i { s with host := rest }

/-- A word the decoder refuses sets STATUS.ILLEGAL, gives RESULT 0 and changes nothing else; the info is a label (R302). -/
def Obligations.StepRaisesIllegal : Prop :=
  ∀ (s : State) (w : CmdWord) (rest : List CmdWord) (info : IllegalInfo),
    s.cfg.legal = true → s.halted = false → s.host = w :: rest → decode w = .error info →
    ∃ t, step s = .next t ∧ Frame [.port, .status, .host] s t ∧ t.host = rest ∧ t.result = 0 ∧
      t.outcome = some (.illegal info) ∧ t.status = s.status ||| 1

/-- A UNIT at or above the count of its kind makes a decoded command Illegal(BAD_UNIT), with no other effect (30_encoding.md
R92, R97; R302), before any argument is looked at (R304). -/
def Obligations.OutOfRangeUnitIsIllegal : Prop :=
  ∀ (i : Instr) (s : State), Intact s → badUnit s.cfg i = true →
    ∃ t, exec i s = .next t ∧ Frame [.port, .status] s t ∧ t.result = 0 ∧ t.outcome = some (.illegal .badUnit) ∧
      t.status = s.status ||| 1

/-- A legal command with an argument of the complete list of R308 is rejected: RESULT 0, STATUS.OOR set only when
DEBUG_OOR_NOTIFY = 1, nothing else changed, no event emitted (R301). -/
def Obligations.RejectedCallHasNoEffect : Prop :=
  ∀ (i : Instr) (s : State), Intact s → badUnit s.cfg i = false → rejects s.cfg i = true →
    ∃ t, exec i s = .next t ∧ Frame [.port, .status] s t ∧ t.result = 0 ∧ t.outcome = some .rejected ∧
      t.status = if s.cfg.debugOorNotify then s.status ||| 2 else s.status

/-- Every other legal command completes (R300, R304, R308: "No other command can be rejected"), for each of the 40
commands. -/
def Obligations.AcceptedCommandCompletes : Prop :=
  ∀ (i : Instr) (s : State), Intact s → badUnit s.cfg i = false → rejects s.cfg i = false →
    ∃ t, exec i s = .next t ∧ t.outcome = some .complete

/-- The `halted` bit (10_state.md R40): set at construction exactly when allocation fails, changed by no command, and
no step is possible while it is 1 (R303). -/
def Obligations.HaltedBit : Prop :=
  (∀ (c : Config) (draw : Space → Nat → Byte), (State.construct c draw).halted = true ↔
    3 * c.npix + 2 * c.nbIo + c.nbIn + c.ndig > c.maxBufBytes) ∧
  (∀ s t : State, step s = .next t → t.halted = s.halted) ∧
  (∀ s : State, s.cfg.legal = true → s.halted = true → step s = .fault .halted)

/-- With no word presented the engine waits and nothing changes. The model's reading of "Between commands it is idle ...
and all state is retained" (R315), log 6. -/
def Obligations.IdleStepWaits : Prop :=
  ∀ s : State, s.cfg.legal = true → s.halted = false → s.host = [] → step s = .next s

/-- A state whose configuration breaks the legal values of R7 takes no step (00_scope.md R8); the refusal's name is the
model's, log 10. -/
def Obligations.IllegalConfigurationRefused : Prop :=
  ∀ s : State, s.cfg.legal = false → step s = .refused .illegalConfiguration

/-! ### Reset and invariants (10_state.md, 70_reset_and_hazards.md) -/

/-- The reset values of R45, for every configuration and every reset draw. For a configuration whose allocation fails, R331
stops construction at its step 2, so there the values of registers, unit state, buffers and pins beyond `halted` and the
idle pins are the model's choice, log 9; an illegal configuration is no instance (R8), and what `State.construct` gives
for it is the model's as well, log 10. -/
def Obligations.ConstructionValues : Prop :=
  ∀ (c : Config) (draw : Space → Nat → Byte) (s : State), s = State.construct c draw →
    (∀ a, a < 3 * c.npix → s.byte .pix a = draw .pix a) ∧
    (∀ a, a < c.nbIo → s.byte .ioOut a = draw .ioOut a ∧ s.byte .ioIn a = draw .ioIn a) ∧
    (∀ a, a < c.nbIn → s.byte .inBuf a = draw .inBuf a) ∧
    (∀ a, a < c.ndig → s.byte .dig a = draw .dig a) ∧
    s.pixCfg = BitVec.ofNat 16 c.groupSize ++ 0#14 ++ BitVec.ofBool (c.pixTransport == .hwserial) ++
      BitVec.ofBool c.pixAuto ∧
    s.colorOrder = 0x24 ∧
    s.ioCfg = 0#29 ++ BitVec.ofBool c.ioInvOut ++ BitVec.ofBool c.ioInvIn ++ BitVec.ofBool c.ioAuto ∧
    s.inCfg = 0#31 ++ BitVec.ofBool c.inAuto ∧
    s.digCfg = 0#31 ++ BitVec.ofBool c.digAuto ∧
    s.status = 0 ∧
    (∀ g, g < c.groups.length → s.chase[g]? = some ⟨0, 0⟩) ∧
    (∀ u, u < c.toggles.length → s.toggles[u]? = some ⟨false, false, false⟩) ∧
    (∀ u, u < c.selects.length → s.selects[u]? = some none) ∧
    (∀ u, u < c.noLamps.length → s.noLamps[u]? = some ⟨0, false, false⟩) ∧
    (s.halted = true ↔ 3 * c.npix + 2 * c.nbIo + c.nbIn + c.ndig > c.maxBufBytes) ∧
    (s.pins.pixSck = false ∧ s.pins.ioSck = false ∧ s.pins.inSck = false ∧ s.pins.digSck = false) ∧
    (s.pins.ioLatIn = (c.latchPol.ioLatIn == .activeLow) ∧ s.pins.ioLatOut = (c.latchPol.ioLatOut == .activeLow) ∧
      s.pins.inLat = (c.latchPol.inLat == .activeLow) ∧ s.pins.digLat = (c.latchPol.digLat == .activeLow)) ∧
    s.pins.irqHold = false

/-- Construction from a legal configuration gives an intact machine, whatever the reset draws (R331, R45). Where allocation
fails, R331 stops at its step 2: that the registers, unit state and buffers of the halted machine are intact is then the
model's choice, log 9. -/
def Obligations.ConstructionIsIntact : Prop :=
  ∀ (c : Config) (draw : Space → Nat → Byte), c.legal = true → Intact (State.construct c draw)

/-- The machine after reset is intact and can take a command. Rests on the model's choice of configuration, log 2 and 3. -/
def Obligations.ResetIsIntact : Prop :=
  Intact State.reset ∧ State.reset.halted = false

/-- Every step keeps the invariant: buffers keep their addresses and so their canonical form (R28), the read-only registers
their construction values (R29), COLOR_ORDER a legal order (R31), STATUS its reserved bits 0 (R35), selections and no-lamp
states their ranges (R38, R39), `halted` its value (R40), the pins their idle levels (R43). -/
def Obligations.StepKeepsIntact : Prop :=
  ∀ s t : State, Intact s → step s = .next t → Intact t

/-- No step changes the configuration, the read-only control registers, `halted` or the set of bytes of a buffer, in any
state (00_scope.md R7; R28, R29, R40). -/
def Obligations.ConfigurationNeverChanges : Prop :=
  ∀ s t : State, step s = .next t →
    t.cfg = s.cfg ∧ t.halted = s.halted ∧ t.pixCfg = s.pixCfg ∧ t.ioCfg = s.ioCfg ∧ t.inCfg = s.inCfg ∧
    t.digCfg = s.digCfg ∧ t.pix.addrs = s.pix.addrs ∧ t.ioOut.addrs = s.ioOut.addrs ∧ t.ioIn.addrs = s.ioIn.addrs ∧
    t.inBuf.addrs = s.inBuf.addrs ∧ t.dig.addrs = s.dig.addrs

/-- STATUS bits are sticky: "STAT_CLEAR only" clears them (R35), and only an illegal or a rejected command sets one. -/
def Obligations.StatusBitsAreSticky : Prop :=
  ∀ (i : Instr) (s t : State), exec i s = .next t → i ≠ .statClear →
    t.status = s.status ∨
    (t.status = s.status ||| 1 ∧ ∃ info, t.outcome = some (.illegal info)) ∨
    (t.status = s.status ||| 2 ∧ t.outcome = some .rejected ∧ s.cfg.debugOorNotify = true)

/-- The wire trace only grows, the pins follow its events, a command that does not complete emits none, and a command
runs zero, one or, for a toggle or select poll in auto mode, two transactions (60_exceptions.md R305; 20_memory.md R77). -/
def Obligations.TraceOnlyGrows : Prop :=
  ∀ (i : Instr) (s t : State), exec i s = .next t →
    ∃ es, Wired s t es ∧ (t.outcome ≠ some .complete → es = []) ∧ updates es ≤ 2 ∧
      (updates es = 2 → s.ioAuto = true ∧ ∃ u, i = .tglPoll u ∨ i = .selPoll u)

/-- No command changes more than the buffers, registers and unit state the spec's write lists give it (R23-R27, R29,
R36-R39, R41), in any state. -/
def Obligations.CommandsChangeOnlyTheirParts : Prop :=
  ∀ (i : Instr) (s t : State), exec i s = .next t → Frame (mayChange s i) s t

/-! ### Pixel unit (41_pixel.md) -/

/-- The bijection law (R144), with its table: for every legal lane map PermInv undoes Perm, each lane appears in exactly
one output byte, and 0x123456 under the six orders. -/
def Obligations.PermBijection : Prop :=
  (∀ m ∈ legalLaneMaps, ∀ c : Colour, permInv m (permByte m c 0) (permByte m c 1) (permByte m c 2) = c) ∧
  (∀ m ∈ legalLaneMaps, ∀ x : Nat, x < 3 →
    ∃ k, k < 3 ∧ (∀ c, permByte m c k = lane c x) ∧ ∀ k', k' < 3 → laneSel m k' = x → k' = k) ∧
  (([.rgb, .rbg, .grb, .gbr, .brg, .bgr] : List ColorOrder).map fun o =>
      (laneMapOf o, ([0, 1, 2] : List Nat).map (permByte (laneMapOf o) 0x123456))) =
    [(0x24, [0x12, 0x34, 0x56]), (0x18, [0x12, 0x56, 0x34]), (0x21, [0x34, 0x12, 0x56]),
     (0x09, [0x34, 0x56, 0x12]), (0x12, [0x56, 0x12, 0x34]), (0x06, [0x56, 0x34, 0x12])]

/-- PIX_SET_PIXEL on an accepted index (R141): three permuted bytes at 3i, every other byte as before, and in auto mode the
frame on the wire. -/
def Obligations.PixSetPixelEffect : Prop :=
  ∀ (s : State) (i : Nat) (c : Colour), Intact s → i < s.cfg.npix →
    ∃ t, exec (.pixSetPixel i c) s = .next t ∧ Completes t 0 ∧ Frame [.pix, .wire, .port] s t ∧
      Wired s t (pixAutoEvents t) ∧
      (∀ k, k < 3 → t.byte .pix (3 * i + k) = lane c (laneSel s.colorOrder k)) ∧
      ∀ a, a < 3 * i ∨ 3 * i + 3 ≤ a → t.byte .pix a = s.byte .pix a

/-- PIX_SET_ALL (R142): every pixel gets the permuted colour. -/
def Obligations.PixSetAllEffect : Prop :=
  ∀ (s : State) (c : Colour), Intact s →
    ∃ t, exec (.pixSetAll c) s = .next t ∧ Completes t 0 ∧ Frame [.pix, .wire, .port] s t ∧
      Wired s t (pixAutoEvents t) ∧
      (∀ i k, i < s.cfg.npix → k < 3 → t.byte .pix (3 * i + k) = lane c (laneSel s.colorOrder k)) ∧
      ∀ a, 3 * s.cfg.npix ≤ a → t.byte .pix a = s.byte .pix a

/-- PIX_FILL_RAW (R143): every byte becomes v, whatever the colour order. -/
def Obligations.PixFillRawEffect : Prop :=
  ∀ (s : State) (v : Byte), Intact s →
    ∃ t, exec (.pixFillRaw v) s = .next t ∧ Completes t 0 ∧ Frame [.pix, .wire, .port] s t ∧
      Wired s t (pixAutoEvents t) ∧ (∀ a, a < 3 * s.cfg.npix → t.byte .pix a = v) ∧
      ∀ a, 3 * s.cfg.npix ≤ a → t.byte .pix a = s.byte .pix a

/-- PIX_SET_ORDER with one of the six codes (R146): COLOR_ORDER changes, PIX does not, and nothing is transmitted even in
auto mode. -/
def Obligations.PixSetOrderEffect : Prop :=
  ∀ (s : State) (m : Byte), (m = 0x24 ∨ m = 0x18 ∨ m = 0x21 ∨ m = 0x09 ∨ m = 0x12 ∨ m = 0x06) →
    ∃ t, exec (.pixSetOrder m) s = .next t ∧ Completes t 0 ∧ Frame [.colorOrder, .port] s t ∧ t.colorOrder = m

/-- PIX_TRANSMIT (R148, R147): one frame, in any mode, with exactly 24·NPIX·GROUP_SIZE PIX cells, and nothing else
changes. -/
def Obligations.PixTransmitEffect : Prop :=
  ∀ s : State, Intact s →
    ∃ t, exec .pixTransmit s = .next t ∧ Completes t 0 ∧ Frame [.wire, .port] s t ∧ Wired s t (pixFrameEvents s) ∧
      cellsOf .pix (pixFrameEvents s) = 24 * s.cfg.npix * s.cfg.groupSize

/-- PIX_GET_PIXEL on an accepted index (R149): the colour whose lanes are the stored bytes, read through the current
order; nothing else changes, in any mode. -/
def Obligations.PixGetPixelResult : Prop :=
  ∀ (s : State) (i : Nat), Intact s → i < s.cfg.npix →
    ∃ (t : State) (c : Colour), exec (.pixGetPixel i) s = .next t ∧ Completes t (c.setWidth 32) ∧ Frame [.port] s t ∧
      ∀ k, k < 3 → s.byte .pix (3 * i + k) = lane c (laneSel s.colorOrder k)

/-- The round trip (R149): after a write of a colour and no order change since, PIX_GET_PIXEL returns it, whatever the auto
flag; after PIX_FILL_RAW v it returns v three times under every order (R143). -/
def Obligations.PixelRoundTrip : Prop :=
  ∀ (s : State) (i : Nat) (c : Colour) (v : Byte), Intact s → i < s.cfg.npix →
    (∃ t u, exec (.pixSetPixel i c) s = .next t ∧ exec (.pixGetPixel i) t = .next u ∧ u.result = c.setWidth 32) ∧
    (∃ t u, exec (.pixSetAll c) s = .next t ∧ exec (.pixGetPixel i) t = .next u ∧ u.result = c.setWidth 32) ∧
    (∃ t u, exec (.pixFillRaw v) s = .next t ∧ exec (.pixGetPixel i) t = .next u ∧
      u.result = (v ++ v ++ v).setWidth 32)

/-! ### I/O-board unit (42_ioboard.md) -/

/-- IO_SET_LAMP on an accepted bit (R171): that lamp bit takes the state, every other lamp bit stays, and in auto mode one
IoTransact follows. -/
def Obligations.IoSetLampEffect : Prop :=
  ∀ (s : State) (k : Nat) (v : Bool), Intact s → k < 8 * s.cfg.nbIo →
    ∃ p t, exec (.ioSetLamp k v) s = .next t ∧ Completes t 0 ∧ Frame [.ioOut] s p ∧ IoAuto p t ∧
      p.lampBit k = v ∧ ∀ k', k' ≠ k → p.lampBit k' = s.lampBit k'

/-- IO_SET_LAMP_ALL (R172): every lamp byte becomes 0xFF or 0x00, and in auto mode one IoTransact follows. -/
def Obligations.IoSetLampAllEffect : Prop :=
  ∀ (s : State) (v : Bool), Intact s →
    ∃ p t, exec (.ioSetLampAll v) s = .next t ∧ Completes t 0 ∧ Frame [.ioOut] s p ∧ IoAuto p t ∧
      (∀ b, b < s.cfg.nbIo → p.byte .ioOut b = if v then 0xFF else 0x00) ∧
      ∀ b, s.cfg.nbIo ≤ b → p.byte .ioOut b = s.byte .ioOut b

/-- IO_RAW_WRITE on an accepted board (R176): that byte becomes v, every other stays, and in auto mode one IoTransact
follows. -/
def Obligations.IoRawWriteEffect : Prop :=
  ∀ (s : State) (b : Nat) (v : Byte), Intact s → b < s.cfg.nbIo →
    ∃ p t, exec (.ioRawWrite b v) s = .next t ∧ Completes t 0 ∧ Frame [.ioOut] s p ∧ IoAuto p t ∧
      p.byte .ioOut b = v ∧ ∀ b', b' ≠ b → p.byte .ioOut b' = s.byte .ioOut b'

/-- IO_GET_BUTTON and IO_RAW_READ on accepted operands (R173, R177): one IoTransact first in auto mode, then the bit or the
byte of IOIN. -/
def Obligations.IoReadResults : Prop :=
  ∀ (s : State), Intact s →
    (∀ k, k < 8 * s.cfg.nbIo →
      ∃ t, exec (.ioGetButton k) s = .next t ∧ IoAuto s t ∧
        Completes t (if (t.byte .ioIn (k / 8)).getLsbD (k % 8) then 1 else 0)) ∧
    (∀ b, b < s.cfg.nbIo →
      ∃ t, exec (.ioRawRead b) s = .next t ∧ IoAuto s t ∧ Completes t ((t.byte .ioIn b).setWidth 32))

/-- IO_COUNT_PRESSED (R174): one IoTransact first in auto mode, then how many of the 8·NB_IO button bits are 1. -/
def Obligations.IoCountPressedResult : Prop :=
  ∀ s : State, Intact s →
    ∃ (t : State) (n : Nat), exec .ioCountPressed s = .next t ∧ IoAuto s t ∧ Completes t (BitVec.ofNat 32 n) ∧
      n = (List.range (8 * s.cfg.nbIo)).countP t.buttonBit ∧ n ≤ 8 * s.cfg.nbIo

/-- IO_COUNT_PRESSED_RANGE (R175): never rejected; bits at or beyond 8·NB_IO count 0; the transaction runs in auto mode
even when the clipped range is empty. -/
def Obligations.IoCountPressedRangeResult : Prop :=
  ∀ (s : State) (o n : Nat), Intact s →
    ∃ (t : State) (cnt : Nat), exec (.ioCountPressedRange o n) s = .next t ∧ IoAuto s t ∧
      Completes t (BitVec.ofNat 32 cnt) ∧
      cnt = ((List.range (8 * s.cfg.nbIo)).filter fun k => decide (o ≤ k ∧ k < o + n)).countP t.buttonBit

/-- IO_GET_LAMP on an accepted bit (R179): the stored lamp bit, with no transaction in any mode. -/
def Obligations.IoGetLampResult : Prop :=
  ∀ (s : State) (k : Nat), k < 8 * s.cfg.nbIo →
    ∃ t, exec (.ioGetLamp k) s = .next t ∧ Frame [.port] s t ∧
      Completes t (if (s.byte .ioOut (k / 8)).getLsbD (k % 8) then 1 else 0)

/-- IO_TRANSACT (R178, R180-R182): the events, the bits stored in IOIN and the draws taken, in any mode; nothing else
changes. -/
def Obligations.IoTransactEffect : Prop :=
  ∀ s : State, Intact s →
    ∃ t, exec .ioTransact s = .next t ∧ Completes t 0 ∧ IoTransacted s t ∧ Frame (.port :: ioTransactParts) s t ∧
      ∀ a, s.cfg.nbIo ≤ a → t.byte .ioIn a = s.byte .ioIn a

/-- After an IO_TRANSACT, board b of the lamp chain shows IOOUT[b], inverted if INV_OUT (20_memory.md R75). -/
def Obligations.LampImageAfterTransact : Prop :=
  ∀ s : State, Intact s →
    ∃ t, exec .ioTransact s = .next t ∧
      t.lampImage = some ((List.range s.cfg.nbIo).map fun b =>
        s.byte .ioOut b ^^^ (if s.cfg.ioInvOut then 0xFF else 0x00))

/-- The lamp round trip, independent of the auto flag (R172, R179): after IO_SET_LAMP_ALL every IO_GET_LAMP returns the
state; after IO_SET_LAMP its bit does; after IO_RAW_WRITE bit j of the byte is lamp bit 8b+j (R176). -/
def Obligations.LampRoundTrip : Prop :=
  ∀ (s : State) (k b j : Nat) (v : Bool) (x : Byte), Intact s → k < 8 * s.cfg.nbIo → b < s.cfg.nbIo → j < 8 →
    (∃ t u, exec (.ioSetLampAll v) s = .next t ∧ exec (.ioGetLamp k) t = .next u ∧ u.result = if v then 1 else 0) ∧
    (∃ t u, exec (.ioSetLamp k v) s = .next t ∧ exec (.ioGetLamp k) t = .next u ∧ u.result = if v then 1 else 0) ∧
    (∃ t u, exec (.ioRawWrite b x) s = .next t ∧ exec (.ioGetLamp (8 * b + j)) t = .next u ∧
      u.result = if x.getLsbD j then 1 else 0)

/-! ### Input-chain unit (43_inputchain.md) -/

/-- IN_TRANSACT (R200, R201): the events, the bits stored in INB, board 0 first, and the draws taken; nothing else
changes. -/
def Obligations.InTransactEffect : Prop :=
  ∀ s : State, Intact s →
    ∃ t, exec .inTransact s = .next t ∧ Completes t 0 ∧ InTransacted s t ∧ Frame [.port, .inBuf, .wire, .inPins] s t ∧
      ∀ a, s.cfg.nbIn ≤ a → t.byte .inBuf a = s.byte .inBuf a

/-- IN_READ_BIT and IN_READ_BYTE on accepted operands (R202, R203): one InTransact first in auto mode (R204), then the bit
or the byte of INB. -/
def Obligations.InReadResults : Prop :=
  ∀ (s : State), Intact s →
    (∀ k, k < 8 * s.cfg.nbIn →
      ∃ t, exec (.inReadBit k) s = .next t ∧ InAuto s t ∧
        Completes t (if (t.byte .inBuf (k / 8)).getLsbD (k % 8) then 1 else 0)) ∧
    (∀ b, b < s.cfg.nbIn →
      ∃ t, exec (.inReadByte b) s = .next t ∧ InAuto s t ∧ Completes t ((t.byte .inBuf b).setWidth 32))

/-! ### Digit chain (44_digits.md R210-R218) -/

/-- DIG_SET_DIGIT on an accepted position (R213, R211): segment bits from the table or blank above 9, bit 0 the decimal
point; every other byte as before; in auto mode the chain on the wire. -/
def Obligations.DigSetDigitEffect : Prop :=
  ∀ (s : State) (p d : Nat) (dp : Bool), Intact s → p < s.cfg.ndig →
    ∃ t, exec (.digSetDigit p d dp) s = .next t ∧ Completes t 0 ∧ Frame [.dig, .wire, .port] s t ∧
      Wired s t (digAutoEvents t) ∧ (∀ j, j < 8 → (t.byte .dig p).getLsbD j = encBit s.cfg d dp j) ∧
      ∀ a, a ≠ p → t.byte .dig a = s.byte .dig a

/-- DIG_COPY_SECTION on accepted ranges (R214): DIG[d+j] becomes the old DIG[f+j]; every other byte as before; n = 0 copies
nothing and still transmits in auto mode. -/
def Obligations.DigCopySectionEffect : Prop :=
  ∀ (s : State) (f d n : Nat), Intact s → f + n ≤ d → d + n ≤ s.cfg.ndig →
    ∃ t, exec (.digCopySection f d n) s = .next t ∧ Completes t 0 ∧ Frame [.dig, .wire, .port] s t ∧
      Wired s t (digAutoEvents t) ∧ (∀ j, j < n → t.byte .dig (d + j) = s.byte .dig (f + j)) ∧
      ∀ a, a < d ∨ d + n ≤ a → t.byte .dig a = s.byte .dig a

/-- DIG_TRANSMIT (R216, R217): DIG[NDIG−1] down to DIG[0], the latch pulse, the update, in any mode, 8·NDIG DIG cells;
nothing else changes. -/
def Obligations.DigTransmitEffect : Prop :=
  ∀ s : State, Intact s →
    ∃ t, exec .digTransmit s = .next t ∧ Completes t 0 ∧ Frame [.wire, .port] s t ∧ Wired s t (digFrameEvents s) ∧
      cellsOf .dig (digFrameEvents s) = 8 * s.cfg.ndig

/-- After a DIG_TRANSMIT, chip j counted from the engine end shows DIG[j] (R217; 20_memory.md R75). -/
def Obligations.DigitImageAfterTransmit : Prop :=
  ∀ s : State, Intact s →
    ∃ t, exec .digTransmit s = .next t ∧
      t.digitImage = some ((List.range s.cfg.ndig).map fun j => s.byte .dig j)

/-- DIG_GET_RAW on an accepted position (R218): the stored byte, with no transmit in any mode. -/
def Obligations.DigGetRawResult : Prop :=
  ∀ (s : State) (p : Nat), p < s.cfg.ndig →
    ∃ t, exec (.digGetRaw p) s = .next t ∧ Frame [.port] s t ∧ Completes t ((s.byte .dig p).setWidth 32)

/-! ### Digit groups (44_digits.md R219-R232) -/

/-- GRP_SHOW_NUMBER (R221-R224): every segment bit of every position of the group, every byte outside the group as before,
and the result max(count, dpPos). -/
def Obligations.GrpShowNumberEffect : Prop :=
  ∀ (s : State) (g dpPos v : Nat) (gc : GroupCfg), Intact s → s.cfg.groups[g]? = some gc →
    ∃ t, exec (.grpShowNumber g dpPos v) s = .next t ∧
      Completes t (BitVec.ofNat 32 (max (digitCount gc.size v) dpPos)) ∧ Frame [.dig, .wire, .port] s t ∧
      Wired s t (digAutoEvents t) ∧
      (∀ i j, i < gc.size → j < 8 →
        (t.byte .dig (gc.start + i)).getLsbD j = numberBit s.cfg gc.size v dpPos i j) ∧
      ∀ a, ¬ inGroup gc a → t.byte .dig a = s.byte .dig a

/-- GRP_SHOW_SIGNED (R225): the number |v|, for a negative v the dash at the position after the last one used where that
lies in the group, and the sign overflow flag where it does not. -/
def Obligations.GrpShowSignedEffect : Prop :=
  ∀ (s : State) (g dpPos : Nat) (v : Int) (gc : GroupCfg), Intact s → s.cfg.groups[g]? = some gc →
    ∃ (t : State) (n : Nat), exec (.grpShowSigned g dpPos v) s = .next t ∧
      n = max (digitCount gc.size v.natAbs) dpPos ∧
      Completes t (if v < 0 ∧ gc.size ≤ n then 1 else 0) ∧ Frame [.dig, .wire, .port] s t ∧
      Wired s t (digAutoEvents t) ∧
      (∀ i j, i < gc.size → j < 8 → (t.byte .dig (gc.start + i)).getLsbD j =
        if v < 0 ∧ i = n then s.cfg.segDash.getLsbD j else numberBit s.cfg gc.size v.natAbs dpPos i j) ∧
      ∀ a, ¬ inGroup gc a → t.byte .dig a = s.byte .dig a

/-- GRP_SHOW_SYMBOL of kinds 0 to 4 (R226, R227): blank, the two messages placed, all dash, all test. -/
def Obligations.GrpShowSymbolEffect : Prop :=
  ∀ (s : State) (g k : Nat) (gc : GroupCfg), Intact s → s.cfg.groups[g]? = some gc → k ≤ 4 →
    ∃ t, exec (.grpShowSymbol g k) s = .next t ∧ Completes t 0 ∧ Frame [.dig, .wire, .port] s t ∧
      Wired s t (digAutoEvents t) ∧
      (∀ i, i < gc.size → t.byte .dig (gc.start + i) = symbolByte s.cfg gc.size k i) ∧
      ∀ a, ¬ inGroup gc a → t.byte .dig a = s.byte .dig a

/-- GRP_CHASE6 and GRP_CHASE8 on accepted positions (R228, R229, R231): the table entry at every position of the group;
the counters are neither read nor written. -/
def Obligations.GrpChaseEffect : Prop :=
  ∀ (s : State) (g : Nat) (gc : GroupCfg), Intact s → s.cfg.groups[g]? = some gc →
    (∀ (q : Nat) (hq : q < 6), ∃ t, exec (.grpChase6 g q) s = .next t ∧ Completes t 0 ∧
      Frame [.dig, .wire, .port] s t ∧ Wired s t (digAutoEvents t) ∧
      (∀ i, i < gc.size → t.byte .dig (gc.start + i) = s.cfg.chase6[q]) ∧
      ∀ a, ¬ inGroup gc a → t.byte .dig a = s.byte .dig a) ∧
    (∀ (q : Nat) (hq : q < 8), ∃ t, exec (.grpChase8 g q) s = .next t ∧ Completes t 0 ∧
      Frame [.dig, .wire, .port] s t ∧ Wired s t (digAutoEvents t) ∧
      (∀ i, i < gc.size → t.byte .dig (gc.start + i) = s.cfg.chase8[q]) ∧
      ∀ a, ¬ inGroup gc a → t.byte .dig a = s.byte .dig a)

/-- GRP_CHASE6_STEP and GRP_CHASE8_STEP (R228, R230, R232): the entry at the counter at every position, then that counter
advances modulo 6 or 8; the group's other counter and every other group's stay. -/
def Obligations.GrpChaseStepEffect : Prop :=
  ∀ (s : State) (g : Nat) (gc : GroupCfg) (ch : ChaseState), Intact s → s.cfg.groups[g]? = some gc →
    s.chase[g]? = some ch →
    (∃ t, exec (.grpChase6Step g) s = .next t ∧ Completes t 0 ∧ Frame [.dig, .chase, .wire, .port] s t ∧
      Wired s t (digAutoEvents t) ∧
      (∀ i, i < gc.size → t.byte .dig (gc.start + i) = s.cfg.chase6[ch.pos6.val]) ∧
      (∀ a, ¬ inGroup gc a → t.byte .dig a = s.byte .dig a) ∧
      (∃ ch', t.chase[g]? = some ch' ∧ ch'.pos6.val = (ch.pos6.val + 1) % 6 ∧ ch'.pos8 = ch.pos8) ∧
      ∀ g', g' ≠ g → t.chase[g']? = s.chase[g']?) ∧
    (∃ t, exec (.grpChase8Step g) s = .next t ∧ Completes t 0 ∧ Frame [.dig, .chase, .wire, .port] s t ∧
      Wired s t (digAutoEvents t) ∧
      (∀ i, i < gc.size → t.byte .dig (gc.start + i) = s.cfg.chase8[ch.pos8.val]) ∧
      (∀ a, ¬ inGroup gc a → t.byte .dig a = s.byte .dig a) ∧
      (∃ ch', t.chase[g]? = some ch' ∧ ch'.pos8.val = (ch.pos8.val + 1) % 8 ∧ ch'.pos6 = ch.pos6) ∧
      ∀ g', g' ≠ g → t.chase[g']? = s.chase[g']?)

/-! ### Button machines (45_buttons.md) -/

/-- TGL_POLL (R252): in auto mode a transaction, then the poll on the button as it then stands, the lamp written at every
poll, and in auto mode a second transaction. `m` is the state the poll sees, `p` the state after the lamp write. -/
def Obligations.TglPollEffect : Prop :=
  ∀ (s : State) (u k : Nat) (tg : ToggleState), Intact s → s.cfg.toggles[u]? = some k → s.toggles[u]? = some tg →
    ∃ m p t, exec (.tglPoll u) s = .next t ∧ IoAuto s m ∧ Frame [.toggles, .ioOut, .port] m p ∧ IoAuto p t ∧
      Completes t (if m.buttonBit k && !tg.latch then 1 else 0) ∧
      p.toggles[u]? = some ⟨tg.state ^^ (m.buttonBit k && !tg.latch), m.buttonBit k,
        tg.changed || (m.buttonBit k && !tg.latch)⟩ ∧
      (∀ u', u' ≠ u → p.toggles[u']? = s.toggles[u']?) ∧
      p.lampBit k = (tg.state ^^ (m.buttonBit k && !tg.latch)) ∧
      ∀ k', k' ≠ k → p.lampBit k' = s.lampBit k'

/-- NL_POLL (R262): in auto mode a transaction, then the poll; on an edge the state advances modulo NL_N; no lamp is
written and no transaction follows. `m` is the state the poll sees. -/
def Obligations.NlPollEffect : Prop :=
  ∀ (s : State) (u : Nat) (nc : NoLampCfg) (nl : NoLampState), Intact s → s.cfg.noLamps[u]? = some nc →
    s.noLamps[u]? = some nl →
    ∃ m t, exec (.nlPoll u) s = .next t ∧ IoAuto s m ∧ Frame [.noLamps, .port] m t ∧
      Completes t (if m.buttonBit nc.bit && !nl.latch then 1 else 0) ∧
      t.noLamps[u]? = some ⟨if m.buttonBit nc.bit && !nl.latch then (nl.state + 1) % nc.states else nl.state,
        m.buttonBit nc.bit, nl.changed || (m.buttonBit nc.bit && !nl.latch)⟩ ∧
      ∀ u', u' ≠ u → t.noLamps[u']? = s.noLamps[u']?

/-- TGL_CONSUME_EVENT and NL_CONSUME_EVENT (R253, R263): the flag is returned and cleared; a second consume returns 0. -/
def Obligations.ConsumeEventEffect : Prop :=
  (∀ (s : State) (u k : Nat) (tg : ToggleState), s.cfg.toggles[u]? = some k → s.toggles[u]? = some tg →
    ∃ t r, exec (.tglConsumeEvent u) s = .next t ∧ Completes t (if tg.changed then 1 else 0) ∧
      Frame [.toggles, .port] s t ∧ t.toggles[u]? = some ⟨tg.state, tg.latch, false⟩ ∧
      (∀ u', u' ≠ u → t.toggles[u']? = s.toggles[u']?) ∧
      exec (.tglConsumeEvent u) t = .next r ∧ Completes r 0) ∧
  (∀ (s : State) (u : Nat) (nc : NoLampCfg) (nl : NoLampState), s.cfg.noLamps[u]? = some nc → s.noLamps[u]? = some nl →
    ∃ t r, exec (.nlConsumeEvent u) s = .next t ∧ Completes t (if nl.changed then 1 else 0) ∧
      Frame [.noLamps, .port] s t ∧ t.noLamps[u]? = some ⟨nl.state, nl.latch, false⟩ ∧
      (∀ u', u' ≠ u → t.noLamps[u']? = s.noLamps[u']?) ∧
      exec (.nlConsumeEvent u) t = .next r ∧ Completes r 0)

/-- TGL_GET_STATE, SEL_GET_STATE and NL_GET_STATE (R254, R258, R264): the state, with 0xFFFF for RESET; no poll, no
transaction, nothing else changed. -/
def Obligations.ButtonGetterResults : Prop :=
  (∀ (s : State) (u k : Nat) (tg : ToggleState), s.cfg.toggles[u]? = some k → s.toggles[u]? = some tg →
    ∃ t, exec (.tglGetState u) s = .next t ∧ Frame [.port] s t ∧ Completes t (if tg.state then 1 else 0)) ∧
  (∀ (s : State) (u : Nat) (sc : SelectCfg) (st : Option Nat), s.cfg.selects[u]? = some sc → s.selects[u]? = some st →
    ∃ t, exec (.selGetState u) s = .next t ∧ Frame [.port] s t ∧
      Completes t (match st with | some i => BitVec.ofNat 32 i | none => 0x0000FFFF)) ∧
  (∀ (s : State) (u : Nat) (nc : NoLampCfg) (nl : NoLampState), s.cfg.noLamps[u]? = some nc → s.noLamps[u]? = some nl →
    ∃ t, exec (.nlGetState u) s = .next t ∧ Frame [.port] s t ∧ Completes t (BitVec.ofNat 32 nl.state))

/-- SEL_POLL (R255-R257): the highest pressed index of the range is adopted, none keeps the selection; every lamp of the
range is rewritten, none outside it; the result says whether the selection changed; in auto mode a transaction before
and one after. `m` is the state the poll sees, `p` the state after the lamp refresh. -/
def Obligations.SelPollEffect : Prop :=
  ∀ (s : State) (u : Nat) (sc : SelectCfg) (st : Option Nat), Intact s → s.cfg.selects[u]? = some sc →
    s.selects[u]? = some st →
    ∃ (m p t : State) (found : Option Nat), exec (.selPoll u) s = .next t ∧ IoAuto s m ∧
      Frame [.selects, .ioOut, .port] m p ∧ IoAuto p t ∧
      (∀ i, found = some i ↔ i < sc.count ∧ m.buttonBit (sc.offset + i) = true ∧
        ∀ j, i < j → j < sc.count → m.buttonBit (sc.offset + j) = false) ∧
      (found = none ↔ ∀ i, i < sc.count → m.buttonBit (sc.offset + i) = false) ∧
      Completes t (if found ≠ none ∧ found ≠ st then 1 else 0) ∧
      p.selects[u]? = some (if found = none then st else found) ∧
      (∀ u', u' ≠ u → p.selects[u']? = s.selects[u']?) ∧
      (∀ i, i < sc.count → p.lampBit (sc.offset + i) =
        match (if found = none then st else found) with | some x => decide (i = x) | none => sc.defaultOn) ∧
      ∀ k, k < sc.offset ∨ sc.offset + sc.count ≤ k → p.lampBit k = s.lampBit k

/-- SEL_SET_STATE with an accepted state (R259): 0xFFFF restores RESET, an index below SEL_COUNT selects it; no lamp
refresh and no transaction. -/
def Obligations.SelSetStateEffect : Prop :=
  ∀ (s : State) (u st : Nat) (sc : SelectCfg) (old : Option Nat), s.cfg.selects[u]? = some sc →
    s.selects[u]? = some old → (st = 0xFFFF ∨ st < sc.count) →
    ∃ t, exec (.selSetState u st) s = .next t ∧ Completes t 0 ∧ Frame [.selects, .port] s t ∧
      t.selects[u]? = some (if st = 0xFFFF then none else some st) ∧ ∀ u', u' ≠ u → t.selects[u']? = s.selects[u']?

/-! ### Status unit (46_status.md) -/

/-- STAT_READ (R280), with its encoding and its illegal forms: it returns STATUS without clearing it; bit 1 reads 0 when
DEBUG_OOR_NOTIFY = 0 and the bits above 0; with a reserved bit set the word sets ILLEGAL and gives RESULT 0. -/
def Obligations.StatReadResult : Prop :=
  (∀ s : State, ∃ t, exec .statRead s = .next t ∧ Completes t s.status ∧ Frame [.port] s t) ∧
  (∀ s : State, Intact s → s.status >>> 2 = 0 ∧ (s.cfg.debugOorNotify = false → s.status.getLsbD 1 = false)) ∧
  decode 0x7000000000000000 = .ok .statRead ∧
  (∀ w : CmdWord, w.extractLsb' 56 8 = 0x70 → w ≠ 0x7000000000000000 → decode w = .error .reservedBits) ∧
  (∀ (s : State) (w : CmdWord) (rest : List CmdWord), s.cfg.legal = true → s.halted = false → s.host = w :: rest →
    w.extractLsb' 56 8 = 0x70 → w ≠ 0x7000000000000000 →
    ∃ t, step s = .next t ∧ t.status = s.status ||| 1 ∧ t.result = 0)

/-- STAT_CLEAR (R281), with its encoding and its illegal forms: both bits are cleared and nothing else changes; no other
command clears a bit of STATUS; an illegal STAT_CLEAR sets ILLEGAL and clears nothing. -/
def Obligations.StatClearEffect : Prop :=
  (∀ s : State, ∃ t, exec .statClear s = .next t ∧ Completes t 0 ∧ Frame [.status, .port] s t ∧
    t.status.getLsbD 0 = false ∧ t.status.getLsbD 1 = false ∧
    ∀ j, 2 ≤ j → t.status.getLsbD j = s.status.getLsbD j) ∧
  (∀ (i : Instr) (s t : State) (j : Nat), i ≠ .statClear → exec i s = .next t → s.status.getLsbD j = true →
    t.status.getLsbD j = true) ∧
  decode 0x7100000000000000 = .ok .statClear ∧
  (∀ (s : State) (w : CmdWord) (rest : List CmdWord), s.cfg.legal = true → s.halted = false → s.host = w :: rest →
    w.extractLsb' 56 8 = 0x71 → w ≠ 0x7100000000000000 →
    ∃ t, step s = .next t ∧ t.status = s.status ||| 1 ∧ t.result = 0)
end

