-- ==== Sys2Proof/Laws/Memory.lean ====
section
/-! SUPPORT. The laws of buffers: read after write, frames, and that every operation keeps the listed addresses and so
the canonical form. -/

namespace Sys2Proof.Machine

/-! ### Addresses and the canonical form -/

@[simp] theorem Memory.addrs_modify (m : Memory) (a : Nat) (f : Byte → Byte) : (m.modify a f).addrs = m.addrs := by
  simp only [Memory.addrs, Memory.modify, List.map_map]
  refine List.map_congr_left fun c _ => ?_
  simp only [Function.comp]
  split <;> rfl

@[simp] theorem Memory.addrs_write (m : Memory) (a : Nat) (v : Byte) : (m.write a v).addrs = m.addrs :=
  Memory.addrs_modify m a _

@[simp] theorem Memory.addrs_writeAll (m : Memory) (l : List (Nat × Byte)) : (m.writeAll l).addrs = m.addrs := by
  induction l generalizing m with
  | nil => rfl
  | cons p l ih => exact (ih (m.write p.1 p.2)).trans (Memory.addrs_write m p.1 p.2)

@[simp] theorem Memory.addrs_fill (m : Memory) (v : Byte) : (m.fill v).addrs = m.addrs := by
  simp [Memory.addrs, Memory.fill, Function.comp_def]

@[simp] theorem Memory.addrs_buffer (n : Nat) (draw : Nat → Byte) : (Memory.buffer n draw).addrs = List.range n := by
  simp [Memory.addrs, Memory.buffer, Function.comp_def]

/-- The canonical form depends on the addresses alone. -/
theorem Memory.wf_of_addrs {m m' : Memory} (h : m'.addrs = m.addrs) (hw : m.wf = true) : m'.wf = true := by
  simpa [Memory.wf, h] using hw

theorem Memory.wf_modify (m : Memory) (a : Nat) (f : Byte → Byte) (h : m.wf = true) : (m.modify a f).wf = true :=
  Memory.wf_of_addrs (Memory.addrs_modify m a f) h

theorem Memory.wf_write (m : Memory) (a : Nat) (v : Byte) (h : m.wf = true) : (m.write a v).wf = true :=
  Memory.wf_of_addrs (Memory.addrs_write m a v) h

theorem Memory.wf_writeAll (m : Memory) (l : List (Nat × Byte)) (h : m.wf = true) : (m.writeAll l).wf = true :=
  Memory.wf_of_addrs (Memory.addrs_writeAll m l) h

theorem Memory.wf_fill (m : Memory) (v : Byte) (h : m.wf = true) : (m.fill v).wf = true :=
  Memory.wf_of_addrs (Memory.addrs_fill m v) h

/-- A buffer that lists 0 .. n−1 is in canonical form. -/
theorem Memory.wf_of_range {m : Memory} {n : Nat} (h : m.addrs = List.range n) : m.wf = true := by
  simp [Memory.wf, h, List.pairwise_lt_range]

theorem Memory.wf_buffer (n : Nat) (draw : Nat → Byte) : (Memory.buffer n draw).wf = true :=
  Memory.wf_of_range (Memory.addrs_buffer n draw)

/-! ### Reads -/

theorem Memory.read?_isSome_iff (m : Memory) (a : Nat) : (m.read? a).isSome = true ↔ a ∈ m.addrs := by
  induction m with
  | nil => simp [Memory.read?, Memory.addrs]
  | cons c m ih =>
    simp only [Memory.read?, Memory.addrs, List.map_cons, List.mem_cons]
    split
    · simp_all
    · rename_i h
      rw [ih]
      simp [Memory.addrs, Ne.symm h]

/-- Reading after changing one byte: that byte is changed, every other byte is as before. -/
theorem Memory.read?_modify (m : Memory) (a : Nat) (f : Byte → Byte) (b : Nat) :
    (m.modify a f).read? b = if a = b then (m.read? b).map f else m.read? b := by
  induction m with
  | nil => simp [Memory.modify, Memory.read?]
  | cons c m ih =>
    have ih' : Memory.read? (List.map (fun c => if c.1 = a then (c.1, f c.2) else c) m) b
        = if a = b then (Memory.read? m b).map f else Memory.read? m b := ih
    simp only [Memory.modify, List.map_cons, Memory.read?]
    by_cases hb : c.1 = b
    · by_cases hc : a = b
      · simp [hb, hc]
      · have : ¬ b = a := fun h => hc h.symm
        simp [hb, hc, this]
    · by_cases hc : c.1 = a
      · simp [hc, ih', hc ▸ hb]
      · simp [hc, hb, ih']

/-- Reading after a write. -/
theorem Memory.read?_write (m : Memory) (a : Nat) (v : Byte) (b : Nat) :
    (m.write a v).read? b = if a = b then (m.read? b).map (fun _ => v) else m.read? b :=
  Memory.read?_modify m a _ b

/-- The last value a list of writes gives address `a`, `v` where it gives none. -/
def lastWrite (l : List (Nat × Byte)) (a : Nat) (v : Byte) : Byte := l.foldl (fun v p => if p.1 = a then p.2 else v) v

/-- Reading after a list of writes. -/
theorem Memory.read?_writeAll (m : Memory) (l : List (Nat × Byte)) (a : Nat) :
    (m.writeAll l).read? a = (m.read? a).map (lastWrite l a) := by
  induction l generalizing m with
  | nil =>
    have h : lastWrite [] a = id := rfl
    simp [Memory.writeAll, h]
  | cons p l ih =>
    have hstep : m.writeAll (p :: l) = (m.write p.1 p.2).writeAll l := rfl
    rw [hstep, ih, Memory.read?_write]
    by_cases h : p.1 = a
    · simp only [h, if_true, Option.map_map]
      congr 1
      funext v
      simp [lastWrite, h]
    · simp only [h, if_false]
      congr 1
      funext v
      simp [lastWrite, h]

/-- A list of writes leaves an address it does not name. -/
theorem lastWrite_of_not_mem {l : List (Nat × Byte)} {a : Nat} (v : Byte) (h : ∀ p ∈ l, p.1 ≠ a) : lastWrite l a v = v := by
  induction l generalizing v with
  | nil => rfl
  | cons p l ih =>
    have hp : p.1 ≠ a := h p (by simp)
    have := ih v (fun q hq => h q (by simp [hq]))
    simpa [lastWrite, hp] using this

/-- Where every write to `a` gives the one value `x`, and there is one, that value stands. -/
theorem lastWrite_of_mem {l : List (Nat × Byte)} {a : Nat} {x : Byte} (v : Byte) (hm : (a, x) ∈ l)
    (hu : ∀ p ∈ l, p.1 = a → p.2 = x) : lastWrite l a v = x := by
  induction l generalizing v with
  | nil => simp at hm
  | cons p l ih =>
    have hu' : ∀ q ∈ l, q.1 = a → q.2 = x := fun q hq => hu q (by simp [hq])
    by_cases hl : (a, x) ∈ l
    · have := ih (if p.1 = a then p.2 else v) hl hu'
      simpa [lastWrite] using this
    · have hp : p = (a, x) := by
        rcases List.mem_cons.mp hm with h | h
        · exact h.symm
        · exact absurd h hl
      have hnone : ∀ q ∈ l, q.1 ≠ a := by
        intro q hq hqa
        have : q = (a, x) := Prod.ext hqa (hu' q hq hqa)
        exact hl (this ▸ hq)
      have := lastWrite_of_not_mem x hnone
      simpa [lastWrite, hp] using this

/-- Reading a constructed buffer: every byte of it is its draw, nothing beyond. -/
theorem Memory.read?_buffer (n : Nat) (draw : Nat → Byte) (a : Nat) :
    (Memory.buffer n draw).read? a = if a < n then some (draw a) else none := by
  have gen : ∀ l : List Nat, (Memory.read? (l.map fun x => (x, draw x)) a) = if a ∈ l then some (draw a) else none := by
    intro l
    induction l with
    | nil => simp [Memory.read?]
    | cons x l ih =>
      simp only [List.map_cons, Memory.read?, List.mem_cons]
      by_cases h : x = a
      · simp [h]
      · simp [h, Ne.symm h, ih]
  simpa [Memory.buffer] using gen (List.range n)

/-! ### Bits -/

/-- Reading a bit of a byte one of whose bits was set. -/
theorem getLsbD_setBit (b : Byte) (j i : Nat) (v : Bool) (hj : j < 8) (hi : i < 8) :
    (setBit b j v).getLsbD i = if i = j then v else b.getLsbD i := by
  have hji : j = 0 ∨ j = 1 ∨ j = 2 ∨ j = 3 ∨ j = 4 ∨ j = 5 ∨ j = 6 ∨ j = 7 := by omega
  have hii : i = 0 ∨ i = 1 ∨ i = 2 ∨ i = 3 ∨ i = 4 ∨ i = 5 ∨ i = 6 ∨ i = 7 := by omega
  rcases hji with rfl | rfl | rfl | rfl | rfl | rfl | rfl | rfl <;>
    rcases hii with rfl | rfl | rfl | rfl | rfl | rfl | rfl | rfl <;> cases v <;> simp [setBit]

end Sys2Proof.Machine
end

