-- ==== Sys2Proof/Laws/State.lean ====
section
/-! SUPPORT. Every field after every named update, true by rfl, so that no proof unfolds a record update. -/

namespace Sys2Proof.Machine

/-! State.completed -/

@[simp] theorem State.completed_cfg (s : State) (v : Word) : (s.completed v).cfg = s.cfg := rfl
@[simp] theorem State.completed_halted (s : State) (v : Word) : (s.completed v).halted = s.halted := rfl
@[simp] theorem State.completed_pix (s : State) (v : Word) : (s.completed v).pix = s.pix := rfl
@[simp] theorem State.completed_ioOut (s : State) (v : Word) : (s.completed v).ioOut = s.ioOut := rfl
@[simp] theorem State.completed_ioIn (s : State) (v : Word) : (s.completed v).ioIn = s.ioIn := rfl
@[simp] theorem State.completed_inBuf (s : State) (v : Word) : (s.completed v).inBuf = s.inBuf := rfl
@[simp] theorem State.completed_dig (s : State) (v : Word) : (s.completed v).dig = s.dig := rfl
@[simp] theorem State.completed_pixCfg (s : State) (v : Word) : (s.completed v).pixCfg = s.pixCfg := rfl
@[simp] theorem State.completed_colorOrder (s : State) (v : Word) : (s.completed v).colorOrder = s.colorOrder := rfl
@[simp] theorem State.completed_ioCfg (s : State) (v : Word) : (s.completed v).ioCfg = s.ioCfg := rfl
@[simp] theorem State.completed_inCfg (s : State) (v : Word) : (s.completed v).inCfg = s.inCfg := rfl
@[simp] theorem State.completed_digCfg (s : State) (v : Word) : (s.completed v).digCfg = s.digCfg := rfl
@[simp] theorem State.completed_status (s : State) (v : Word) : (s.completed v).status = s.status := rfl
@[simp] theorem State.completed_chase (s : State) (v : Word) : (s.completed v).chase = s.chase := rfl
@[simp] theorem State.completed_toggles (s : State) (v : Word) : (s.completed v).toggles = s.toggles := rfl
@[simp] theorem State.completed_selects (s : State) (v : Word) : (s.completed v).selects = s.selects := rfl
@[simp] theorem State.completed_noLamps (s : State) (v : Word) : (s.completed v).noLamps = s.noLamps := rfl
@[simp] theorem State.completed_pins (s : State) (v : Word) : (s.completed v).pins = s.pins := rfl
@[simp] theorem State.completed_result (s : State) (v : Word) : (s.completed v).result = v := rfl
@[simp] theorem State.completed_outcome (s : State) (v : Word) : (s.completed v).outcome = some .complete := rfl
@[simp] theorem State.completed_trace (s : State) (v : Word) : (s.completed v).trace = s.trace := rfl
@[simp] theorem State.completed_ioPins (s : State) (v : Word) : (s.completed v).ioPins = s.ioPins := rfl
@[simp] theorem State.completed_inPins (s : State) (v : Word) : (s.completed v).inPins = s.inPins := rfl
@[simp] theorem State.completed_host (s : State) (v : Word) : (s.completed v).host = s.host := rfl

/-! State.rejected -/

@[simp] theorem State.rejected_cfg (s : State) : (s.rejected).cfg = s.cfg := rfl
@[simp] theorem State.rejected_halted (s : State) : (s.rejected).halted = s.halted := rfl
@[simp] theorem State.rejected_pix (s : State) : (s.rejected).pix = s.pix := rfl
@[simp] theorem State.rejected_ioOut (s : State) : (s.rejected).ioOut = s.ioOut := rfl
@[simp] theorem State.rejected_ioIn (s : State) : (s.rejected).ioIn = s.ioIn := rfl
@[simp] theorem State.rejected_inBuf (s : State) : (s.rejected).inBuf = s.inBuf := rfl
@[simp] theorem State.rejected_dig (s : State) : (s.rejected).dig = s.dig := rfl
@[simp] theorem State.rejected_pixCfg (s : State) : (s.rejected).pixCfg = s.pixCfg := rfl
@[simp] theorem State.rejected_colorOrder (s : State) : (s.rejected).colorOrder = s.colorOrder := rfl
@[simp] theorem State.rejected_ioCfg (s : State) : (s.rejected).ioCfg = s.ioCfg := rfl
@[simp] theorem State.rejected_inCfg (s : State) : (s.rejected).inCfg = s.inCfg := rfl
@[simp] theorem State.rejected_digCfg (s : State) : (s.rejected).digCfg = s.digCfg := rfl
@[simp] theorem State.rejected_status (s : State) : (s.rejected).status = setOor s.cfg s.status := rfl
@[simp] theorem State.rejected_chase (s : State) : (s.rejected).chase = s.chase := rfl
@[simp] theorem State.rejected_toggles (s : State) : (s.rejected).toggles = s.toggles := rfl
@[simp] theorem State.rejected_selects (s : State) : (s.rejected).selects = s.selects := rfl
@[simp] theorem State.rejected_noLamps (s : State) : (s.rejected).noLamps = s.noLamps := rfl
@[simp] theorem State.rejected_pins (s : State) : (s.rejected).pins = s.pins := rfl
@[simp] theorem State.rejected_result (s : State) : (s.rejected).result = 0 := rfl
@[simp] theorem State.rejected_outcome (s : State) : (s.rejected).outcome = some .rejected := rfl
@[simp] theorem State.rejected_trace (s : State) : (s.rejected).trace = s.trace := rfl
@[simp] theorem State.rejected_ioPins (s : State) : (s.rejected).ioPins = s.ioPins := rfl
@[simp] theorem State.rejected_inPins (s : State) : (s.rejected).inPins = s.inPins := rfl
@[simp] theorem State.rejected_host (s : State) : (s.rejected).host = s.host := rfl

/-! State.illegal -/

@[simp] theorem State.illegal_cfg (s : State) (info : IllegalInfo) : (s.illegal info).cfg = s.cfg := rfl
@[simp] theorem State.illegal_halted (s : State) (info : IllegalInfo) : (s.illegal info).halted = s.halted := rfl
@[simp] theorem State.illegal_pix (s : State) (info : IllegalInfo) : (s.illegal info).pix = s.pix := rfl
@[simp] theorem State.illegal_ioOut (s : State) (info : IllegalInfo) : (s.illegal info).ioOut = s.ioOut := rfl
@[simp] theorem State.illegal_ioIn (s : State) (info : IllegalInfo) : (s.illegal info).ioIn = s.ioIn := rfl
@[simp] theorem State.illegal_inBuf (s : State) (info : IllegalInfo) : (s.illegal info).inBuf = s.inBuf := rfl
@[simp] theorem State.illegal_dig (s : State) (info : IllegalInfo) : (s.illegal info).dig = s.dig := rfl
@[simp] theorem State.illegal_pixCfg (s : State) (info : IllegalInfo) : (s.illegal info).pixCfg = s.pixCfg := rfl
@[simp] theorem State.illegal_colorOrder (s : State) (info : IllegalInfo) : (s.illegal info).colorOrder = s.colorOrder := rfl
@[simp] theorem State.illegal_ioCfg (s : State) (info : IllegalInfo) : (s.illegal info).ioCfg = s.ioCfg := rfl
@[simp] theorem State.illegal_inCfg (s : State) (info : IllegalInfo) : (s.illegal info).inCfg = s.inCfg := rfl
@[simp] theorem State.illegal_digCfg (s : State) (info : IllegalInfo) : (s.illegal info).digCfg = s.digCfg := rfl
@[simp] theorem State.illegal_status (s : State) (info : IllegalInfo) : (s.illegal info).status = setIllegal s.status := rfl
@[simp] theorem State.illegal_chase (s : State) (info : IllegalInfo) : (s.illegal info).chase = s.chase := rfl
@[simp] theorem State.illegal_toggles (s : State) (info : IllegalInfo) : (s.illegal info).toggles = s.toggles := rfl
@[simp] theorem State.illegal_selects (s : State) (info : IllegalInfo) : (s.illegal info).selects = s.selects := rfl
@[simp] theorem State.illegal_noLamps (s : State) (info : IllegalInfo) : (s.illegal info).noLamps = s.noLamps := rfl
@[simp] theorem State.illegal_pins (s : State) (info : IllegalInfo) : (s.illegal info).pins = s.pins := rfl
@[simp] theorem State.illegal_result (s : State) (info : IllegalInfo) : (s.illegal info).result = 0 := rfl
@[simp] theorem State.illegal_outcome (s : State) (info : IllegalInfo) : (s.illegal info).outcome = some (.illegal info) := rfl
@[simp] theorem State.illegal_trace (s : State) (info : IllegalInfo) : (s.illegal info).trace = s.trace := rfl
@[simp] theorem State.illegal_ioPins (s : State) (info : IllegalInfo) : (s.illegal info).ioPins = s.ioPins := rfl
@[simp] theorem State.illegal_inPins (s : State) (info : IllegalInfo) : (s.illegal info).inPins = s.inPins := rfl
@[simp] theorem State.illegal_host (s : State) (info : IllegalInfo) : (s.illegal info).host = s.host := rfl

/-! State.emit -/

@[simp] theorem State.emit_cfg (s : State) (es : List Event) : (s.emit es).cfg = s.cfg := rfl
@[simp] theorem State.emit_halted (s : State) (es : List Event) : (s.emit es).halted = s.halted := rfl
@[simp] theorem State.emit_pix (s : State) (es : List Event) : (s.emit es).pix = s.pix := rfl
@[simp] theorem State.emit_ioOut (s : State) (es : List Event) : (s.emit es).ioOut = s.ioOut := rfl
@[simp] theorem State.emit_ioIn (s : State) (es : List Event) : (s.emit es).ioIn = s.ioIn := rfl
@[simp] theorem State.emit_inBuf (s : State) (es : List Event) : (s.emit es).inBuf = s.inBuf := rfl
@[simp] theorem State.emit_dig (s : State) (es : List Event) : (s.emit es).dig = s.dig := rfl
@[simp] theorem State.emit_pixCfg (s : State) (es : List Event) : (s.emit es).pixCfg = s.pixCfg := rfl
@[simp] theorem State.emit_colorOrder (s : State) (es : List Event) : (s.emit es).colorOrder = s.colorOrder := rfl
@[simp] theorem State.emit_ioCfg (s : State) (es : List Event) : (s.emit es).ioCfg = s.ioCfg := rfl
@[simp] theorem State.emit_inCfg (s : State) (es : List Event) : (s.emit es).inCfg = s.inCfg := rfl
@[simp] theorem State.emit_digCfg (s : State) (es : List Event) : (s.emit es).digCfg = s.digCfg := rfl
@[simp] theorem State.emit_status (s : State) (es : List Event) : (s.emit es).status = s.status := rfl
@[simp] theorem State.emit_chase (s : State) (es : List Event) : (s.emit es).chase = s.chase := rfl
@[simp] theorem State.emit_toggles (s : State) (es : List Event) : (s.emit es).toggles = s.toggles := rfl
@[simp] theorem State.emit_selects (s : State) (es : List Event) : (s.emit es).selects = s.selects := rfl
@[simp] theorem State.emit_noLamps (s : State) (es : List Event) : (s.emit es).noLamps = s.noLamps := rfl
@[simp] theorem State.emit_pins (s : State) (es : List Event) : (s.emit es).pins = es.foldl (Pins.drive s.cfg.latchPol) s.pins := rfl
@[simp] theorem State.emit_result (s : State) (es : List Event) : (s.emit es).result = s.result := rfl
@[simp] theorem State.emit_outcome (s : State) (es : List Event) : (s.emit es).outcome = s.outcome := rfl
@[simp] theorem State.emit_trace (s : State) (es : List Event) : (s.emit es).trace = s.trace ++ es := rfl
@[simp] theorem State.emit_ioPins (s : State) (es : List Event) : (s.emit es).ioPins = s.ioPins := rfl
@[simp] theorem State.emit_inPins (s : State) (es : List Event) : (s.emit es).inPins = s.inPins := rfl
@[simp] theorem State.emit_host (s : State) (es : List Event) : (s.emit es).host = s.host := rfl

/-! State.setLampBit -/

@[simp] theorem State.setLampBit_cfg (s : State) (k : Nat) (v : Bool) : (s.setLampBit k v).cfg = s.cfg := rfl
@[simp] theorem State.setLampBit_halted (s : State) (k : Nat) (v : Bool) : (s.setLampBit k v).halted = s.halted := rfl
@[simp] theorem State.setLampBit_pix (s : State) (k : Nat) (v : Bool) : (s.setLampBit k v).pix = s.pix := rfl
@[simp] theorem State.setLampBit_ioOut (s : State) (k : Nat) (v : Bool) : (s.setLampBit k v).ioOut = s.ioOut.modify (k / 8) (fun b => setBit b (k % 8) v) := rfl
@[simp] theorem State.setLampBit_ioIn (s : State) (k : Nat) (v : Bool) : (s.setLampBit k v).ioIn = s.ioIn := rfl
@[simp] theorem State.setLampBit_inBuf (s : State) (k : Nat) (v : Bool) : (s.setLampBit k v).inBuf = s.inBuf := rfl
@[simp] theorem State.setLampBit_dig (s : State) (k : Nat) (v : Bool) : (s.setLampBit k v).dig = s.dig := rfl
@[simp] theorem State.setLampBit_pixCfg (s : State) (k : Nat) (v : Bool) : (s.setLampBit k v).pixCfg = s.pixCfg := rfl
@[simp] theorem State.setLampBit_colorOrder (s : State) (k : Nat) (v : Bool) : (s.setLampBit k v).colorOrder = s.colorOrder := rfl
@[simp] theorem State.setLampBit_ioCfg (s : State) (k : Nat) (v : Bool) : (s.setLampBit k v).ioCfg = s.ioCfg := rfl
@[simp] theorem State.setLampBit_inCfg (s : State) (k : Nat) (v : Bool) : (s.setLampBit k v).inCfg = s.inCfg := rfl
@[simp] theorem State.setLampBit_digCfg (s : State) (k : Nat) (v : Bool) : (s.setLampBit k v).digCfg = s.digCfg := rfl
@[simp] theorem State.setLampBit_status (s : State) (k : Nat) (v : Bool) : (s.setLampBit k v).status = s.status := rfl
@[simp] theorem State.setLampBit_chase (s : State) (k : Nat) (v : Bool) : (s.setLampBit k v).chase = s.chase := rfl
@[simp] theorem State.setLampBit_toggles (s : State) (k : Nat) (v : Bool) : (s.setLampBit k v).toggles = s.toggles := rfl
@[simp] theorem State.setLampBit_selects (s : State) (k : Nat) (v : Bool) : (s.setLampBit k v).selects = s.selects := rfl
@[simp] theorem State.setLampBit_noLamps (s : State) (k : Nat) (v : Bool) : (s.setLampBit k v).noLamps = s.noLamps := rfl
@[simp] theorem State.setLampBit_pins (s : State) (k : Nat) (v : Bool) : (s.setLampBit k v).pins = s.pins := rfl
@[simp] theorem State.setLampBit_result (s : State) (k : Nat) (v : Bool) : (s.setLampBit k v).result = s.result := rfl
@[simp] theorem State.setLampBit_outcome (s : State) (k : Nat) (v : Bool) : (s.setLampBit k v).outcome = s.outcome := rfl
@[simp] theorem State.setLampBit_trace (s : State) (k : Nat) (v : Bool) : (s.setLampBit k v).trace = s.trace := rfl
@[simp] theorem State.setLampBit_ioPins (s : State) (k : Nat) (v : Bool) : (s.setLampBit k v).ioPins = s.ioPins := rfl
@[simp] theorem State.setLampBit_inPins (s : State) (k : Nat) (v : Bool) : (s.setLampBit k v).inPins = s.inPins := rfl
@[simp] theorem State.setLampBit_host (s : State) (k : Nat) (v : Bool) : (s.setLampBit k v).host = s.host := rfl

/-! State.setToggle -/

@[simp] theorem State.setToggle_cfg (s : State) (u : Nat) (t : ToggleState) : (s.setToggle u t).cfg = s.cfg := rfl
@[simp] theorem State.setToggle_halted (s : State) (u : Nat) (t : ToggleState) : (s.setToggle u t).halted = s.halted := rfl
@[simp] theorem State.setToggle_pix (s : State) (u : Nat) (t : ToggleState) : (s.setToggle u t).pix = s.pix := rfl
@[simp] theorem State.setToggle_ioOut (s : State) (u : Nat) (t : ToggleState) : (s.setToggle u t).ioOut = s.ioOut := rfl
@[simp] theorem State.setToggle_ioIn (s : State) (u : Nat) (t : ToggleState) : (s.setToggle u t).ioIn = s.ioIn := rfl
@[simp] theorem State.setToggle_inBuf (s : State) (u : Nat) (t : ToggleState) : (s.setToggle u t).inBuf = s.inBuf := rfl
@[simp] theorem State.setToggle_dig (s : State) (u : Nat) (t : ToggleState) : (s.setToggle u t).dig = s.dig := rfl
@[simp] theorem State.setToggle_pixCfg (s : State) (u : Nat) (t : ToggleState) : (s.setToggle u t).pixCfg = s.pixCfg := rfl
@[simp] theorem State.setToggle_colorOrder (s : State) (u : Nat) (t : ToggleState) : (s.setToggle u t).colorOrder = s.colorOrder := rfl
@[simp] theorem State.setToggle_ioCfg (s : State) (u : Nat) (t : ToggleState) : (s.setToggle u t).ioCfg = s.ioCfg := rfl
@[simp] theorem State.setToggle_inCfg (s : State) (u : Nat) (t : ToggleState) : (s.setToggle u t).inCfg = s.inCfg := rfl
@[simp] theorem State.setToggle_digCfg (s : State) (u : Nat) (t : ToggleState) : (s.setToggle u t).digCfg = s.digCfg := rfl
@[simp] theorem State.setToggle_status (s : State) (u : Nat) (t : ToggleState) : (s.setToggle u t).status = s.status := rfl
@[simp] theorem State.setToggle_chase (s : State) (u : Nat) (t : ToggleState) : (s.setToggle u t).chase = s.chase := rfl
@[simp] theorem State.setToggle_toggles (s : State) (u : Nat) (t : ToggleState) : (s.setToggle u t).toggles = s.toggles.set u t := rfl
@[simp] theorem State.setToggle_selects (s : State) (u : Nat) (t : ToggleState) : (s.setToggle u t).selects = s.selects := rfl
@[simp] theorem State.setToggle_noLamps (s : State) (u : Nat) (t : ToggleState) : (s.setToggle u t).noLamps = s.noLamps := rfl
@[simp] theorem State.setToggle_pins (s : State) (u : Nat) (t : ToggleState) : (s.setToggle u t).pins = s.pins := rfl
@[simp] theorem State.setToggle_result (s : State) (u : Nat) (t : ToggleState) : (s.setToggle u t).result = s.result := rfl
@[simp] theorem State.setToggle_outcome (s : State) (u : Nat) (t : ToggleState) : (s.setToggle u t).outcome = s.outcome := rfl
@[simp] theorem State.setToggle_trace (s : State) (u : Nat) (t : ToggleState) : (s.setToggle u t).trace = s.trace := rfl
@[simp] theorem State.setToggle_ioPins (s : State) (u : Nat) (t : ToggleState) : (s.setToggle u t).ioPins = s.ioPins := rfl
@[simp] theorem State.setToggle_inPins (s : State) (u : Nat) (t : ToggleState) : (s.setToggle u t).inPins = s.inPins := rfl
@[simp] theorem State.setToggle_host (s : State) (u : Nat) (t : ToggleState) : (s.setToggle u t).host = s.host := rfl

/-! State.setSelect -/

@[simp] theorem State.setSelect_cfg (s : State) (u : Nat) (st : Option Nat) : (s.setSelect u st).cfg = s.cfg := rfl
@[simp] theorem State.setSelect_halted (s : State) (u : Nat) (st : Option Nat) : (s.setSelect u st).halted = s.halted := rfl
@[simp] theorem State.setSelect_pix (s : State) (u : Nat) (st : Option Nat) : (s.setSelect u st).pix = s.pix := rfl
@[simp] theorem State.setSelect_ioOut (s : State) (u : Nat) (st : Option Nat) : (s.setSelect u st).ioOut = s.ioOut := rfl
@[simp] theorem State.setSelect_ioIn (s : State) (u : Nat) (st : Option Nat) : (s.setSelect u st).ioIn = s.ioIn := rfl
@[simp] theorem State.setSelect_inBuf (s : State) (u : Nat) (st : Option Nat) : (s.setSelect u st).inBuf = s.inBuf := rfl
@[simp] theorem State.setSelect_dig (s : State) (u : Nat) (st : Option Nat) : (s.setSelect u st).dig = s.dig := rfl
@[simp] theorem State.setSelect_pixCfg (s : State) (u : Nat) (st : Option Nat) : (s.setSelect u st).pixCfg = s.pixCfg := rfl
@[simp] theorem State.setSelect_colorOrder (s : State) (u : Nat) (st : Option Nat) : (s.setSelect u st).colorOrder = s.colorOrder := rfl
@[simp] theorem State.setSelect_ioCfg (s : State) (u : Nat) (st : Option Nat) : (s.setSelect u st).ioCfg = s.ioCfg := rfl
@[simp] theorem State.setSelect_inCfg (s : State) (u : Nat) (st : Option Nat) : (s.setSelect u st).inCfg = s.inCfg := rfl
@[simp] theorem State.setSelect_digCfg (s : State) (u : Nat) (st : Option Nat) : (s.setSelect u st).digCfg = s.digCfg := rfl
@[simp] theorem State.setSelect_status (s : State) (u : Nat) (st : Option Nat) : (s.setSelect u st).status = s.status := rfl
@[simp] theorem State.setSelect_chase (s : State) (u : Nat) (st : Option Nat) : (s.setSelect u st).chase = s.chase := rfl
@[simp] theorem State.setSelect_toggles (s : State) (u : Nat) (st : Option Nat) : (s.setSelect u st).toggles = s.toggles := rfl
@[simp] theorem State.setSelect_selects (s : State) (u : Nat) (st : Option Nat) : (s.setSelect u st).selects = s.selects.set u st := rfl
@[simp] theorem State.setSelect_noLamps (s : State) (u : Nat) (st : Option Nat) : (s.setSelect u st).noLamps = s.noLamps := rfl
@[simp] theorem State.setSelect_pins (s : State) (u : Nat) (st : Option Nat) : (s.setSelect u st).pins = s.pins := rfl
@[simp] theorem State.setSelect_result (s : State) (u : Nat) (st : Option Nat) : (s.setSelect u st).result = s.result := rfl
@[simp] theorem State.setSelect_outcome (s : State) (u : Nat) (st : Option Nat) : (s.setSelect u st).outcome = s.outcome := rfl
@[simp] theorem State.setSelect_trace (s : State) (u : Nat) (st : Option Nat) : (s.setSelect u st).trace = s.trace := rfl
@[simp] theorem State.setSelect_ioPins (s : State) (u : Nat) (st : Option Nat) : (s.setSelect u st).ioPins = s.ioPins := rfl
@[simp] theorem State.setSelect_inPins (s : State) (u : Nat) (st : Option Nat) : (s.setSelect u st).inPins = s.inPins := rfl
@[simp] theorem State.setSelect_host (s : State) (u : Nat) (st : Option Nat) : (s.setSelect u st).host = s.host := rfl

/-! State.setNoLamp -/

@[simp] theorem State.setNoLamp_cfg (s : State) (u : Nat) (t : NoLampState) : (s.setNoLamp u t).cfg = s.cfg := rfl
@[simp] theorem State.setNoLamp_halted (s : State) (u : Nat) (t : NoLampState) : (s.setNoLamp u t).halted = s.halted := rfl
@[simp] theorem State.setNoLamp_pix (s : State) (u : Nat) (t : NoLampState) : (s.setNoLamp u t).pix = s.pix := rfl
@[simp] theorem State.setNoLamp_ioOut (s : State) (u : Nat) (t : NoLampState) : (s.setNoLamp u t).ioOut = s.ioOut := rfl
@[simp] theorem State.setNoLamp_ioIn (s : State) (u : Nat) (t : NoLampState) : (s.setNoLamp u t).ioIn = s.ioIn := rfl
@[simp] theorem State.setNoLamp_inBuf (s : State) (u : Nat) (t : NoLampState) : (s.setNoLamp u t).inBuf = s.inBuf := rfl
@[simp] theorem State.setNoLamp_dig (s : State) (u : Nat) (t : NoLampState) : (s.setNoLamp u t).dig = s.dig := rfl
@[simp] theorem State.setNoLamp_pixCfg (s : State) (u : Nat) (t : NoLampState) : (s.setNoLamp u t).pixCfg = s.pixCfg := rfl
@[simp] theorem State.setNoLamp_colorOrder (s : State) (u : Nat) (t : NoLampState) : (s.setNoLamp u t).colorOrder = s.colorOrder := rfl
@[simp] theorem State.setNoLamp_ioCfg (s : State) (u : Nat) (t : NoLampState) : (s.setNoLamp u t).ioCfg = s.ioCfg := rfl
@[simp] theorem State.setNoLamp_inCfg (s : State) (u : Nat) (t : NoLampState) : (s.setNoLamp u t).inCfg = s.inCfg := rfl
@[simp] theorem State.setNoLamp_digCfg (s : State) (u : Nat) (t : NoLampState) : (s.setNoLamp u t).digCfg = s.digCfg := rfl
@[simp] theorem State.setNoLamp_status (s : State) (u : Nat) (t : NoLampState) : (s.setNoLamp u t).status = s.status := rfl
@[simp] theorem State.setNoLamp_chase (s : State) (u : Nat) (t : NoLampState) : (s.setNoLamp u t).chase = s.chase := rfl
@[simp] theorem State.setNoLamp_toggles (s : State) (u : Nat) (t : NoLampState) : (s.setNoLamp u t).toggles = s.toggles := rfl
@[simp] theorem State.setNoLamp_selects (s : State) (u : Nat) (t : NoLampState) : (s.setNoLamp u t).selects = s.selects := rfl
@[simp] theorem State.setNoLamp_noLamps (s : State) (u : Nat) (t : NoLampState) : (s.setNoLamp u t).noLamps = s.noLamps.set u t := rfl
@[simp] theorem State.setNoLamp_pins (s : State) (u : Nat) (t : NoLampState) : (s.setNoLamp u t).pins = s.pins := rfl
@[simp] theorem State.setNoLamp_result (s : State) (u : Nat) (t : NoLampState) : (s.setNoLamp u t).result = s.result := rfl
@[simp] theorem State.setNoLamp_outcome (s : State) (u : Nat) (t : NoLampState) : (s.setNoLamp u t).outcome = s.outcome := rfl
@[simp] theorem State.setNoLamp_trace (s : State) (u : Nat) (t : NoLampState) : (s.setNoLamp u t).trace = s.trace := rfl
@[simp] theorem State.setNoLamp_ioPins (s : State) (u : Nat) (t : NoLampState) : (s.setNoLamp u t).ioPins = s.ioPins := rfl
@[simp] theorem State.setNoLamp_inPins (s : State) (u : Nat) (t : NoLampState) : (s.setNoLamp u t).inPins = s.inPins := rfl
@[simp] theorem State.setNoLamp_host (s : State) (u : Nat) (t : NoLampState) : (s.setNoLamp u t).host = s.host := rfl

/-! State.setChase -/

@[simp] theorem State.setChase_cfg (s : State) (g : Nat) (c : ChaseState) : (s.setChase g c).cfg = s.cfg := rfl
@[simp] theorem State.setChase_halted (s : State) (g : Nat) (c : ChaseState) : (s.setChase g c).halted = s.halted := rfl
@[simp] theorem State.setChase_pix (s : State) (g : Nat) (c : ChaseState) : (s.setChase g c).pix = s.pix := rfl
@[simp] theorem State.setChase_ioOut (s : State) (g : Nat) (c : ChaseState) : (s.setChase g c).ioOut = s.ioOut := rfl
@[simp] theorem State.setChase_ioIn (s : State) (g : Nat) (c : ChaseState) : (s.setChase g c).ioIn = s.ioIn := rfl
@[simp] theorem State.setChase_inBuf (s : State) (g : Nat) (c : ChaseState) : (s.setChase g c).inBuf = s.inBuf := rfl
@[simp] theorem State.setChase_dig (s : State) (g : Nat) (c : ChaseState) : (s.setChase g c).dig = s.dig := rfl
@[simp] theorem State.setChase_pixCfg (s : State) (g : Nat) (c : ChaseState) : (s.setChase g c).pixCfg = s.pixCfg := rfl
@[simp] theorem State.setChase_colorOrder (s : State) (g : Nat) (c : ChaseState) : (s.setChase g c).colorOrder = s.colorOrder := rfl
@[simp] theorem State.setChase_ioCfg (s : State) (g : Nat) (c : ChaseState) : (s.setChase g c).ioCfg = s.ioCfg := rfl
@[simp] theorem State.setChase_inCfg (s : State) (g : Nat) (c : ChaseState) : (s.setChase g c).inCfg = s.inCfg := rfl
@[simp] theorem State.setChase_digCfg (s : State) (g : Nat) (c : ChaseState) : (s.setChase g c).digCfg = s.digCfg := rfl
@[simp] theorem State.setChase_status (s : State) (g : Nat) (c : ChaseState) : (s.setChase g c).status = s.status := rfl
@[simp] theorem State.setChase_chase (s : State) (g : Nat) (c : ChaseState) : (s.setChase g c).chase = s.chase.set g c := rfl
@[simp] theorem State.setChase_toggles (s : State) (g : Nat) (c : ChaseState) : (s.setChase g c).toggles = s.toggles := rfl
@[simp] theorem State.setChase_selects (s : State) (g : Nat) (c : ChaseState) : (s.setChase g c).selects = s.selects := rfl
@[simp] theorem State.setChase_noLamps (s : State) (g : Nat) (c : ChaseState) : (s.setChase g c).noLamps = s.noLamps := rfl
@[simp] theorem State.setChase_pins (s : State) (g : Nat) (c : ChaseState) : (s.setChase g c).pins = s.pins := rfl
@[simp] theorem State.setChase_result (s : State) (g : Nat) (c : ChaseState) : (s.setChase g c).result = s.result := rfl
@[simp] theorem State.setChase_outcome (s : State) (g : Nat) (c : ChaseState) : (s.setChase g c).outcome = s.outcome := rfl
@[simp] theorem State.setChase_trace (s : State) (g : Nat) (c : ChaseState) : (s.setChase g c).trace = s.trace := rfl
@[simp] theorem State.setChase_ioPins (s : State) (g : Nat) (c : ChaseState) : (s.setChase g c).ioPins = s.ioPins := rfl
@[simp] theorem State.setChase_inPins (s : State) (g : Nat) (c : ChaseState) : (s.setChase g c).inPins = s.inPins := rfl
@[simp] theorem State.setChase_host (s : State) (g : Nat) (c : ChaseState) : (s.setChase g c).host = s.host := rfl

/-! State.setDig -/

@[simp] theorem State.setDig_cfg (s : State) (m : Memory) : (s.setDig m).cfg = s.cfg := rfl
@[simp] theorem State.setDig_halted (s : State) (m : Memory) : (s.setDig m).halted = s.halted := rfl
@[simp] theorem State.setDig_pix (s : State) (m : Memory) : (s.setDig m).pix = s.pix := rfl
@[simp] theorem State.setDig_ioOut (s : State) (m : Memory) : (s.setDig m).ioOut = s.ioOut := rfl
@[simp] theorem State.setDig_ioIn (s : State) (m : Memory) : (s.setDig m).ioIn = s.ioIn := rfl
@[simp] theorem State.setDig_inBuf (s : State) (m : Memory) : (s.setDig m).inBuf = s.inBuf := rfl
@[simp] theorem State.setDig_dig (s : State) (m : Memory) : (s.setDig m).dig = m := rfl
@[simp] theorem State.setDig_pixCfg (s : State) (m : Memory) : (s.setDig m).pixCfg = s.pixCfg := rfl
@[simp] theorem State.setDig_colorOrder (s : State) (m : Memory) : (s.setDig m).colorOrder = s.colorOrder := rfl
@[simp] theorem State.setDig_ioCfg (s : State) (m : Memory) : (s.setDig m).ioCfg = s.ioCfg := rfl
@[simp] theorem State.setDig_inCfg (s : State) (m : Memory) : (s.setDig m).inCfg = s.inCfg := rfl
@[simp] theorem State.setDig_digCfg (s : State) (m : Memory) : (s.setDig m).digCfg = s.digCfg := rfl
@[simp] theorem State.setDig_status (s : State) (m : Memory) : (s.setDig m).status = s.status := rfl
@[simp] theorem State.setDig_chase (s : State) (m : Memory) : (s.setDig m).chase = s.chase := rfl
@[simp] theorem State.setDig_toggles (s : State) (m : Memory) : (s.setDig m).toggles = s.toggles := rfl
@[simp] theorem State.setDig_selects (s : State) (m : Memory) : (s.setDig m).selects = s.selects := rfl
@[simp] theorem State.setDig_noLamps (s : State) (m : Memory) : (s.setDig m).noLamps = s.noLamps := rfl
@[simp] theorem State.setDig_pins (s : State) (m : Memory) : (s.setDig m).pins = s.pins := rfl
@[simp] theorem State.setDig_result (s : State) (m : Memory) : (s.setDig m).result = s.result := rfl
@[simp] theorem State.setDig_outcome (s : State) (m : Memory) : (s.setDig m).outcome = s.outcome := rfl
@[simp] theorem State.setDig_trace (s : State) (m : Memory) : (s.setDig m).trace = s.trace := rfl
@[simp] theorem State.setDig_ioPins (s : State) (m : Memory) : (s.setDig m).ioPins = s.ioPins := rfl
@[simp] theorem State.setDig_inPins (s : State) (m : Memory) : (s.setDig m).inPins = s.inPins := rfl
@[simp] theorem State.setDig_host (s : State) (m : Memory) : (s.setDig m).host = s.host := rfl

/-! State.setPix -/

@[simp] theorem State.setPix_cfg (s : State) (m : Memory) : (s.setPix m).cfg = s.cfg := rfl
@[simp] theorem State.setPix_halted (s : State) (m : Memory) : (s.setPix m).halted = s.halted := rfl
@[simp] theorem State.setPix_pix (s : State) (m : Memory) : (s.setPix m).pix = m := rfl
@[simp] theorem State.setPix_ioOut (s : State) (m : Memory) : (s.setPix m).ioOut = s.ioOut := rfl
@[simp] theorem State.setPix_ioIn (s : State) (m : Memory) : (s.setPix m).ioIn = s.ioIn := rfl
@[simp] theorem State.setPix_inBuf (s : State) (m : Memory) : (s.setPix m).inBuf = s.inBuf := rfl
@[simp] theorem State.setPix_dig (s : State) (m : Memory) : (s.setPix m).dig = s.dig := rfl
@[simp] theorem State.setPix_pixCfg (s : State) (m : Memory) : (s.setPix m).pixCfg = s.pixCfg := rfl
@[simp] theorem State.setPix_colorOrder (s : State) (m : Memory) : (s.setPix m).colorOrder = s.colorOrder := rfl
@[simp] theorem State.setPix_ioCfg (s : State) (m : Memory) : (s.setPix m).ioCfg = s.ioCfg := rfl
@[simp] theorem State.setPix_inCfg (s : State) (m : Memory) : (s.setPix m).inCfg = s.inCfg := rfl
@[simp] theorem State.setPix_digCfg (s : State) (m : Memory) : (s.setPix m).digCfg = s.digCfg := rfl
@[simp] theorem State.setPix_status (s : State) (m : Memory) : (s.setPix m).status = s.status := rfl
@[simp] theorem State.setPix_chase (s : State) (m : Memory) : (s.setPix m).chase = s.chase := rfl
@[simp] theorem State.setPix_toggles (s : State) (m : Memory) : (s.setPix m).toggles = s.toggles := rfl
@[simp] theorem State.setPix_selects (s : State) (m : Memory) : (s.setPix m).selects = s.selects := rfl
@[simp] theorem State.setPix_noLamps (s : State) (m : Memory) : (s.setPix m).noLamps = s.noLamps := rfl
@[simp] theorem State.setPix_pins (s : State) (m : Memory) : (s.setPix m).pins = s.pins := rfl
@[simp] theorem State.setPix_result (s : State) (m : Memory) : (s.setPix m).result = s.result := rfl
@[simp] theorem State.setPix_outcome (s : State) (m : Memory) : (s.setPix m).outcome = s.outcome := rfl
@[simp] theorem State.setPix_trace (s : State) (m : Memory) : (s.setPix m).trace = s.trace := rfl
@[simp] theorem State.setPix_ioPins (s : State) (m : Memory) : (s.setPix m).ioPins = s.ioPins := rfl
@[simp] theorem State.setPix_inPins (s : State) (m : Memory) : (s.setPix m).inPins = s.inPins := rfl
@[simp] theorem State.setPix_host (s : State) (m : Memory) : (s.setPix m).host = s.host := rfl

/-! State.setIoOut -/

@[simp] theorem State.setIoOut_cfg (s : State) (m : Memory) : (s.setIoOut m).cfg = s.cfg := rfl
@[simp] theorem State.setIoOut_halted (s : State) (m : Memory) : (s.setIoOut m).halted = s.halted := rfl
@[simp] theorem State.setIoOut_pix (s : State) (m : Memory) : (s.setIoOut m).pix = s.pix := rfl
@[simp] theorem State.setIoOut_ioOut (s : State) (m : Memory) : (s.setIoOut m).ioOut = m := rfl
@[simp] theorem State.setIoOut_ioIn (s : State) (m : Memory) : (s.setIoOut m).ioIn = s.ioIn := rfl
@[simp] theorem State.setIoOut_inBuf (s : State) (m : Memory) : (s.setIoOut m).inBuf = s.inBuf := rfl
@[simp] theorem State.setIoOut_dig (s : State) (m : Memory) : (s.setIoOut m).dig = s.dig := rfl
@[simp] theorem State.setIoOut_pixCfg (s : State) (m : Memory) : (s.setIoOut m).pixCfg = s.pixCfg := rfl
@[simp] theorem State.setIoOut_colorOrder (s : State) (m : Memory) : (s.setIoOut m).colorOrder = s.colorOrder := rfl
@[simp] theorem State.setIoOut_ioCfg (s : State) (m : Memory) : (s.setIoOut m).ioCfg = s.ioCfg := rfl
@[simp] theorem State.setIoOut_inCfg (s : State) (m : Memory) : (s.setIoOut m).inCfg = s.inCfg := rfl
@[simp] theorem State.setIoOut_digCfg (s : State) (m : Memory) : (s.setIoOut m).digCfg = s.digCfg := rfl
@[simp] theorem State.setIoOut_status (s : State) (m : Memory) : (s.setIoOut m).status = s.status := rfl
@[simp] theorem State.setIoOut_chase (s : State) (m : Memory) : (s.setIoOut m).chase = s.chase := rfl
@[simp] theorem State.setIoOut_toggles (s : State) (m : Memory) : (s.setIoOut m).toggles = s.toggles := rfl
@[simp] theorem State.setIoOut_selects (s : State) (m : Memory) : (s.setIoOut m).selects = s.selects := rfl
@[simp] theorem State.setIoOut_noLamps (s : State) (m : Memory) : (s.setIoOut m).noLamps = s.noLamps := rfl
@[simp] theorem State.setIoOut_pins (s : State) (m : Memory) : (s.setIoOut m).pins = s.pins := rfl
@[simp] theorem State.setIoOut_result (s : State) (m : Memory) : (s.setIoOut m).result = s.result := rfl
@[simp] theorem State.setIoOut_outcome (s : State) (m : Memory) : (s.setIoOut m).outcome = s.outcome := rfl
@[simp] theorem State.setIoOut_trace (s : State) (m : Memory) : (s.setIoOut m).trace = s.trace := rfl
@[simp] theorem State.setIoOut_ioPins (s : State) (m : Memory) : (s.setIoOut m).ioPins = s.ioPins := rfl
@[simp] theorem State.setIoOut_inPins (s : State) (m : Memory) : (s.setIoOut m).inPins = s.inPins := rfl
@[simp] theorem State.setIoOut_host (s : State) (m : Memory) : (s.setIoOut m).host = s.host := rfl

/-! Named reads of a state after an update that leaves what they read -/

@[simp] theorem State.completed_space (s : State) (v : Word) (sp : Space) : (s.completed v).space sp = s.space sp := by cases sp <;> rfl
@[simp] theorem State.completed_byte (s : State) (v : Word) (sp : Space) (x : Nat) : (s.completed v).byte sp x = s.byte sp x := by
  simp [State.byte]
@[simp] theorem State.completed_bit (s : State) (v : Word) (sp : Space) (x : Nat) : (s.completed v).bit sp x = s.bit sp x := by
  simp [State.bit]
@[simp] theorem State.rejected_space (s : State) (sp : Space) : (s.rejected).space sp = s.space sp := by cases sp <;> rfl
@[simp] theorem State.rejected_byte (s : State) (sp : Space) (x : Nat) : (s.rejected).byte sp x = s.byte sp x := by
  simp [State.byte]
@[simp] theorem State.rejected_bit (s : State) (sp : Space) (x : Nat) : (s.rejected).bit sp x = s.bit sp x := by
  simp [State.bit]
@[simp] theorem State.illegal_space (s : State) (info : IllegalInfo) (sp : Space) : (s.illegal info).space sp = s.space sp := by cases sp <;> rfl
@[simp] theorem State.illegal_byte (s : State) (info : IllegalInfo) (sp : Space) (x : Nat) : (s.illegal info).byte sp x = s.byte sp x := by
  simp [State.byte]
@[simp] theorem State.illegal_bit (s : State) (info : IllegalInfo) (sp : Space) (x : Nat) : (s.illegal info).bit sp x = s.bit sp x := by
  simp [State.bit]
@[simp] theorem State.emit_space (s : State) (es : List Event) (sp : Space) : (s.emit es).space sp = s.space sp := by cases sp <;> rfl
@[simp] theorem State.emit_byte (s : State) (es : List Event) (sp : Space) (x : Nat) : (s.emit es).byte sp x = s.byte sp x := by
  simp [State.byte]
@[simp] theorem State.emit_bit (s : State) (es : List Event) (sp : Space) (x : Nat) : (s.emit es).bit sp x = s.bit sp x := by
  simp [State.bit]
@[simp] theorem State.setToggle_space (s : State) (u : Nat) (t : ToggleState) (sp : Space) : (s.setToggle u t).space sp = s.space sp := by cases sp <;> rfl
@[simp] theorem State.setToggle_byte (s : State) (u : Nat) (t : ToggleState) (sp : Space) (x : Nat) : (s.setToggle u t).byte sp x = s.byte sp x := by
  simp [State.byte]
@[simp] theorem State.setToggle_bit (s : State) (u : Nat) (t : ToggleState) (sp : Space) (x : Nat) : (s.setToggle u t).bit sp x = s.bit sp x := by
  simp [State.bit]
@[simp] theorem State.setSelect_space (s : State) (u : Nat) (st : Option Nat) (sp : Space) : (s.setSelect u st).space sp = s.space sp := by cases sp <;> rfl
@[simp] theorem State.setSelect_byte (s : State) (u : Nat) (st : Option Nat) (sp : Space) (x : Nat) : (s.setSelect u st).byte sp x = s.byte sp x := by
  simp [State.byte]
@[simp] theorem State.setSelect_bit (s : State) (u : Nat) (st : Option Nat) (sp : Space) (x : Nat) : (s.setSelect u st).bit sp x = s.bit sp x := by
  simp [State.bit]
@[simp] theorem State.setNoLamp_space (s : State) (u : Nat) (t : NoLampState) (sp : Space) : (s.setNoLamp u t).space sp = s.space sp := by cases sp <;> rfl
@[simp] theorem State.setNoLamp_byte (s : State) (u : Nat) (t : NoLampState) (sp : Space) (x : Nat) : (s.setNoLamp u t).byte sp x = s.byte sp x := by
  simp [State.byte]
@[simp] theorem State.setNoLamp_bit (s : State) (u : Nat) (t : NoLampState) (sp : Space) (x : Nat) : (s.setNoLamp u t).bit sp x = s.bit sp x := by
  simp [State.bit]
@[simp] theorem State.setChase_space (s : State) (g : Nat) (c : ChaseState) (sp : Space) : (s.setChase g c).space sp = s.space sp := by cases sp <;> rfl
@[simp] theorem State.setChase_byte (s : State) (g : Nat) (c : ChaseState) (sp : Space) (x : Nat) : (s.setChase g c).byte sp x = s.byte sp x := by
  simp [State.byte]
@[simp] theorem State.setChase_bit (s : State) (g : Nat) (c : ChaseState) (sp : Space) (x : Nat) : (s.setChase g c).bit sp x = s.bit sp x := by
  simp [State.bit]

end Sys2Proof.Machine
end

