-- ==== Sys2Proof/Laws/Channel.lean ====
section
/-! SUPPORT. What the transactions leave unchanged, field by field (42_ioboard.md R182, 43_inputchain.md R200,
41_pixel.md R147, 44_digits.md R217). -/

namespace Sys2Proof.Machine

/-- What every step of a fold keeps, the fold keeps. -/
theorem foldl_keep {α β γ : Type} (f : α → β → α) (g : α → γ) (h : ∀ a b, g (f a b) = g a) (l : List β) (a : α) :
    g (l.foldl f a) = g a := by
  induction l generalizing a with
  | nil => rfl
  | cons b l ih => exact (ih (f a b)).trans (h a b)

/-- What emitting events and shifting one board keep, an IoTransact keeps. -/
theorem State.ioTransact_keep {γ : Type} (g : State → γ) (he : ∀ s es, g (State.emit s es) = g s)
    (hb : ∀ s b, g (State.ioShiftBoard s b) = g s) (s : State) : g s.ioTransact = g s := by
  rw [State.ioTransact, he, foldl_keep _ g hb, he]

/-- What emitting events and shifting one board keep, an InTransact keeps. -/
theorem State.inTransact_keep {γ : Type} (g : State → γ) (he : ∀ s es, g (State.emit s es) = g s)
    (hb : ∀ s b, g (State.inShiftBoard s b) = g s) (s : State) : g s.inTransact = g s := by
  rw [State.inTransact, he, foldl_keep _ g hb, he]

/-! State.ioShiftBoard -/

@[simp] theorem State.ioShiftBoard_cfg (s : State) (b : Nat) : (s.ioShiftBoard b).cfg = s.cfg := by
  simp only [State.ioShiftBoard, State.emit_cfg]
@[simp] theorem State.ioShiftBoard_halted (s : State) (b : Nat) : (s.ioShiftBoard b).halted = s.halted := by
  simp only [State.ioShiftBoard, State.emit_halted]
@[simp] theorem State.ioShiftBoard_pix (s : State) (b : Nat) : (s.ioShiftBoard b).pix = s.pix := by
  simp only [State.ioShiftBoard, State.emit_pix]
@[simp] theorem State.ioShiftBoard_ioOut (s : State) (b : Nat) : (s.ioShiftBoard b).ioOut = s.ioOut := by
  simp only [State.ioShiftBoard, State.emit_ioOut]
@[simp] theorem State.ioShiftBoard_inBuf (s : State) (b : Nat) : (s.ioShiftBoard b).inBuf = s.inBuf := by
  simp only [State.ioShiftBoard, State.emit_inBuf]
@[simp] theorem State.ioShiftBoard_dig (s : State) (b : Nat) : (s.ioShiftBoard b).dig = s.dig := by
  simp only [State.ioShiftBoard, State.emit_dig]
@[simp] theorem State.ioShiftBoard_pixCfg (s : State) (b : Nat) : (s.ioShiftBoard b).pixCfg = s.pixCfg := by
  simp only [State.ioShiftBoard, State.emit_pixCfg]
@[simp] theorem State.ioShiftBoard_colorOrder (s : State) (b : Nat) : (s.ioShiftBoard b).colorOrder = s.colorOrder := by
  simp only [State.ioShiftBoard, State.emit_colorOrder]
@[simp] theorem State.ioShiftBoard_ioCfg (s : State) (b : Nat) : (s.ioShiftBoard b).ioCfg = s.ioCfg := by
  simp only [State.ioShiftBoard, State.emit_ioCfg]
@[simp] theorem State.ioShiftBoard_inCfg (s : State) (b : Nat) : (s.ioShiftBoard b).inCfg = s.inCfg := by
  simp only [State.ioShiftBoard, State.emit_inCfg]
@[simp] theorem State.ioShiftBoard_digCfg (s : State) (b : Nat) : (s.ioShiftBoard b).digCfg = s.digCfg := by
  simp only [State.ioShiftBoard, State.emit_digCfg]
@[simp] theorem State.ioShiftBoard_status (s : State) (b : Nat) : (s.ioShiftBoard b).status = s.status := by
  simp only [State.ioShiftBoard, State.emit_status]
@[simp] theorem State.ioShiftBoard_chase (s : State) (b : Nat) : (s.ioShiftBoard b).chase = s.chase := by
  simp only [State.ioShiftBoard, State.emit_chase]
@[simp] theorem State.ioShiftBoard_toggles (s : State) (b : Nat) : (s.ioShiftBoard b).toggles = s.toggles := by
  simp only [State.ioShiftBoard, State.emit_toggles]
@[simp] theorem State.ioShiftBoard_selects (s : State) (b : Nat) : (s.ioShiftBoard b).selects = s.selects := by
  simp only [State.ioShiftBoard, State.emit_selects]
@[simp] theorem State.ioShiftBoard_noLamps (s : State) (b : Nat) : (s.ioShiftBoard b).noLamps = s.noLamps := by
  simp only [State.ioShiftBoard, State.emit_noLamps]
@[simp] theorem State.ioShiftBoard_result (s : State) (b : Nat) : (s.ioShiftBoard b).result = s.result := by
  simp only [State.ioShiftBoard, State.emit_result]
@[simp] theorem State.ioShiftBoard_outcome (s : State) (b : Nat) : (s.ioShiftBoard b).outcome = s.outcome := by
  simp only [State.ioShiftBoard, State.emit_outcome]
@[simp] theorem State.ioShiftBoard_inPins (s : State) (b : Nat) : (s.ioShiftBoard b).inPins = s.inPins := by
  simp only [State.ioShiftBoard, State.emit_inPins]
@[simp] theorem State.ioShiftBoard_host (s : State) (b : Nat) : (s.ioShiftBoard b).host = s.host := by
  simp only [State.ioShiftBoard, State.emit_host]

/-! State.inShiftBoard -/

@[simp] theorem State.inShiftBoard_cfg (s : State) (b : Nat) : (s.inShiftBoard b).cfg = s.cfg := by
  simp only [State.inShiftBoard, State.emit_cfg]
@[simp] theorem State.inShiftBoard_halted (s : State) (b : Nat) : (s.inShiftBoard b).halted = s.halted := by
  simp only [State.inShiftBoard, State.emit_halted]
@[simp] theorem State.inShiftBoard_pix (s : State) (b : Nat) : (s.inShiftBoard b).pix = s.pix := by
  simp only [State.inShiftBoard, State.emit_pix]
@[simp] theorem State.inShiftBoard_ioOut (s : State) (b : Nat) : (s.inShiftBoard b).ioOut = s.ioOut := by
  simp only [State.inShiftBoard, State.emit_ioOut]
@[simp] theorem State.inShiftBoard_ioIn (s : State) (b : Nat) : (s.inShiftBoard b).ioIn = s.ioIn := by
  simp only [State.inShiftBoard, State.emit_ioIn]
@[simp] theorem State.inShiftBoard_dig (s : State) (b : Nat) : (s.inShiftBoard b).dig = s.dig := by
  simp only [State.inShiftBoard, State.emit_dig]
@[simp] theorem State.inShiftBoard_pixCfg (s : State) (b : Nat) : (s.inShiftBoard b).pixCfg = s.pixCfg := by
  simp only [State.inShiftBoard, State.emit_pixCfg]
@[simp] theorem State.inShiftBoard_colorOrder (s : State) (b : Nat) : (s.inShiftBoard b).colorOrder = s.colorOrder := by
  simp only [State.inShiftBoard, State.emit_colorOrder]
@[simp] theorem State.inShiftBoard_ioCfg (s : State) (b : Nat) : (s.inShiftBoard b).ioCfg = s.ioCfg := by
  simp only [State.inShiftBoard, State.emit_ioCfg]
@[simp] theorem State.inShiftBoard_inCfg (s : State) (b : Nat) : (s.inShiftBoard b).inCfg = s.inCfg := by
  simp only [State.inShiftBoard, State.emit_inCfg]
@[simp] theorem State.inShiftBoard_digCfg (s : State) (b : Nat) : (s.inShiftBoard b).digCfg = s.digCfg := by
  simp only [State.inShiftBoard, State.emit_digCfg]
@[simp] theorem State.inShiftBoard_status (s : State) (b : Nat) : (s.inShiftBoard b).status = s.status := by
  simp only [State.inShiftBoard, State.emit_status]
@[simp] theorem State.inShiftBoard_chase (s : State) (b : Nat) : (s.inShiftBoard b).chase = s.chase := by
  simp only [State.inShiftBoard, State.emit_chase]
@[simp] theorem State.inShiftBoard_toggles (s : State) (b : Nat) : (s.inShiftBoard b).toggles = s.toggles := by
  simp only [State.inShiftBoard, State.emit_toggles]
@[simp] theorem State.inShiftBoard_selects (s : State) (b : Nat) : (s.inShiftBoard b).selects = s.selects := by
  simp only [State.inShiftBoard, State.emit_selects]
@[simp] theorem State.inShiftBoard_noLamps (s : State) (b : Nat) : (s.inShiftBoard b).noLamps = s.noLamps := by
  simp only [State.inShiftBoard, State.emit_noLamps]
@[simp] theorem State.inShiftBoard_result (s : State) (b : Nat) : (s.inShiftBoard b).result = s.result := by
  simp only [State.inShiftBoard, State.emit_result]
@[simp] theorem State.inShiftBoard_outcome (s : State) (b : Nat) : (s.inShiftBoard b).outcome = s.outcome := by
  simp only [State.inShiftBoard, State.emit_outcome]
@[simp] theorem State.inShiftBoard_ioPins (s : State) (b : Nat) : (s.inShiftBoard b).ioPins = s.ioPins := by
  simp only [State.inShiftBoard, State.emit_ioPins]
@[simp] theorem State.inShiftBoard_host (s : State) (b : Nat) : (s.inShiftBoard b).host = s.host := by
  simp only [State.inShiftBoard, State.emit_host]

/-! State.pixTransmit -/

@[simp] theorem State.pixTransmit_cfg (s : State) : (s.pixTransmit).cfg = s.cfg := State.emit_cfg s _
@[simp] theorem State.pixTransmit_halted (s : State) : (s.pixTransmit).halted = s.halted := State.emit_halted s _
@[simp] theorem State.pixTransmit_pix (s : State) : (s.pixTransmit).pix = s.pix := State.emit_pix s _
@[simp] theorem State.pixTransmit_ioOut (s : State) : (s.pixTransmit).ioOut = s.ioOut := State.emit_ioOut s _
@[simp] theorem State.pixTransmit_ioIn (s : State) : (s.pixTransmit).ioIn = s.ioIn := State.emit_ioIn s _
@[simp] theorem State.pixTransmit_inBuf (s : State) : (s.pixTransmit).inBuf = s.inBuf := State.emit_inBuf s _
@[simp] theorem State.pixTransmit_dig (s : State) : (s.pixTransmit).dig = s.dig := State.emit_dig s _
@[simp] theorem State.pixTransmit_pixCfg (s : State) : (s.pixTransmit).pixCfg = s.pixCfg := State.emit_pixCfg s _
@[simp] theorem State.pixTransmit_colorOrder (s : State) : (s.pixTransmit).colorOrder = s.colorOrder := State.emit_colorOrder s _
@[simp] theorem State.pixTransmit_ioCfg (s : State) : (s.pixTransmit).ioCfg = s.ioCfg := State.emit_ioCfg s _
@[simp] theorem State.pixTransmit_inCfg (s : State) : (s.pixTransmit).inCfg = s.inCfg := State.emit_inCfg s _
@[simp] theorem State.pixTransmit_digCfg (s : State) : (s.pixTransmit).digCfg = s.digCfg := State.emit_digCfg s _
@[simp] theorem State.pixTransmit_status (s : State) : (s.pixTransmit).status = s.status := State.emit_status s _
@[simp] theorem State.pixTransmit_chase (s : State) : (s.pixTransmit).chase = s.chase := State.emit_chase s _
@[simp] theorem State.pixTransmit_toggles (s : State) : (s.pixTransmit).toggles = s.toggles := State.emit_toggles s _
@[simp] theorem State.pixTransmit_selects (s : State) : (s.pixTransmit).selects = s.selects := State.emit_selects s _
@[simp] theorem State.pixTransmit_noLamps (s : State) : (s.pixTransmit).noLamps = s.noLamps := State.emit_noLamps s _
@[simp] theorem State.pixTransmit_result (s : State) : (s.pixTransmit).result = s.result := State.emit_result s _
@[simp] theorem State.pixTransmit_outcome (s : State) : (s.pixTransmit).outcome = s.outcome := State.emit_outcome s _
@[simp] theorem State.pixTransmit_ioPins (s : State) : (s.pixTransmit).ioPins = s.ioPins := State.emit_ioPins s _
@[simp] theorem State.pixTransmit_inPins (s : State) : (s.pixTransmit).inPins = s.inPins := State.emit_inPins s _
@[simp] theorem State.pixTransmit_host (s : State) : (s.pixTransmit).host = s.host := State.emit_host s _

/-! State.digTransmit -/

@[simp] theorem State.digTransmit_cfg (s : State) : (s.digTransmit).cfg = s.cfg := State.emit_cfg s _
@[simp] theorem State.digTransmit_halted (s : State) : (s.digTransmit).halted = s.halted := State.emit_halted s _
@[simp] theorem State.digTransmit_pix (s : State) : (s.digTransmit).pix = s.pix := State.emit_pix s _
@[simp] theorem State.digTransmit_ioOut (s : State) : (s.digTransmit).ioOut = s.ioOut := State.emit_ioOut s _
@[simp] theorem State.digTransmit_ioIn (s : State) : (s.digTransmit).ioIn = s.ioIn := State.emit_ioIn s _
@[simp] theorem State.digTransmit_inBuf (s : State) : (s.digTransmit).inBuf = s.inBuf := State.emit_inBuf s _
@[simp] theorem State.digTransmit_dig (s : State) : (s.digTransmit).dig = s.dig := State.emit_dig s _
@[simp] theorem State.digTransmit_pixCfg (s : State) : (s.digTransmit).pixCfg = s.pixCfg := State.emit_pixCfg s _
@[simp] theorem State.digTransmit_colorOrder (s : State) : (s.digTransmit).colorOrder = s.colorOrder := State.emit_colorOrder s _
@[simp] theorem State.digTransmit_ioCfg (s : State) : (s.digTransmit).ioCfg = s.ioCfg := State.emit_ioCfg s _
@[simp] theorem State.digTransmit_inCfg (s : State) : (s.digTransmit).inCfg = s.inCfg := State.emit_inCfg s _
@[simp] theorem State.digTransmit_digCfg (s : State) : (s.digTransmit).digCfg = s.digCfg := State.emit_digCfg s _
@[simp] theorem State.digTransmit_status (s : State) : (s.digTransmit).status = s.status := State.emit_status s _
@[simp] theorem State.digTransmit_chase (s : State) : (s.digTransmit).chase = s.chase := State.emit_chase s _
@[simp] theorem State.digTransmit_toggles (s : State) : (s.digTransmit).toggles = s.toggles := State.emit_toggles s _
@[simp] theorem State.digTransmit_selects (s : State) : (s.digTransmit).selects = s.selects := State.emit_selects s _
@[simp] theorem State.digTransmit_noLamps (s : State) : (s.digTransmit).noLamps = s.noLamps := State.emit_noLamps s _
@[simp] theorem State.digTransmit_result (s : State) : (s.digTransmit).result = s.result := State.emit_result s _
@[simp] theorem State.digTransmit_outcome (s : State) : (s.digTransmit).outcome = s.outcome := State.emit_outcome s _
@[simp] theorem State.digTransmit_ioPins (s : State) : (s.digTransmit).ioPins = s.ioPins := State.emit_ioPins s _
@[simp] theorem State.digTransmit_inPins (s : State) : (s.digTransmit).inPins = s.inPins := State.emit_inPins s _
@[simp] theorem State.digTransmit_host (s : State) : (s.digTransmit).host = s.host := State.emit_host s _

/-! State.pixAutoTail -/

@[simp] theorem State.pixAutoTail_cfg (s : State) : (s.pixAutoTail).cfg = s.cfg := by
  unfold State.pixAutoTail; split <;> simp
@[simp] theorem State.pixAutoTail_halted (s : State) : (s.pixAutoTail).halted = s.halted := by
  unfold State.pixAutoTail; split <;> simp
@[simp] theorem State.pixAutoTail_pix (s : State) : (s.pixAutoTail).pix = s.pix := by
  unfold State.pixAutoTail; split <;> simp
@[simp] theorem State.pixAutoTail_ioOut (s : State) : (s.pixAutoTail).ioOut = s.ioOut := by
  unfold State.pixAutoTail; split <;> simp
@[simp] theorem State.pixAutoTail_ioIn (s : State) : (s.pixAutoTail).ioIn = s.ioIn := by
  unfold State.pixAutoTail; split <;> simp
@[simp] theorem State.pixAutoTail_inBuf (s : State) : (s.pixAutoTail).inBuf = s.inBuf := by
  unfold State.pixAutoTail; split <;> simp
@[simp] theorem State.pixAutoTail_dig (s : State) : (s.pixAutoTail).dig = s.dig := by
  unfold State.pixAutoTail; split <;> simp
@[simp] theorem State.pixAutoTail_pixCfg (s : State) : (s.pixAutoTail).pixCfg = s.pixCfg := by
  unfold State.pixAutoTail; split <;> simp
@[simp] theorem State.pixAutoTail_colorOrder (s : State) : (s.pixAutoTail).colorOrder = s.colorOrder := by
  unfold State.pixAutoTail; split <;> simp
@[simp] theorem State.pixAutoTail_ioCfg (s : State) : (s.pixAutoTail).ioCfg = s.ioCfg := by
  unfold State.pixAutoTail; split <;> simp
@[simp] theorem State.pixAutoTail_inCfg (s : State) : (s.pixAutoTail).inCfg = s.inCfg := by
  unfold State.pixAutoTail; split <;> simp
@[simp] theorem State.pixAutoTail_digCfg (s : State) : (s.pixAutoTail).digCfg = s.digCfg := by
  unfold State.pixAutoTail; split <;> simp
@[simp] theorem State.pixAutoTail_status (s : State) : (s.pixAutoTail).status = s.status := by
  unfold State.pixAutoTail; split <;> simp
@[simp] theorem State.pixAutoTail_chase (s : State) : (s.pixAutoTail).chase = s.chase := by
  unfold State.pixAutoTail; split <;> simp
@[simp] theorem State.pixAutoTail_toggles (s : State) : (s.pixAutoTail).toggles = s.toggles := by
  unfold State.pixAutoTail; split <;> simp
@[simp] theorem State.pixAutoTail_selects (s : State) : (s.pixAutoTail).selects = s.selects := by
  unfold State.pixAutoTail; split <;> simp
@[simp] theorem State.pixAutoTail_noLamps (s : State) : (s.pixAutoTail).noLamps = s.noLamps := by
  unfold State.pixAutoTail; split <;> simp
@[simp] theorem State.pixAutoTail_result (s : State) : (s.pixAutoTail).result = s.result := by
  unfold State.pixAutoTail; split <;> simp
@[simp] theorem State.pixAutoTail_outcome (s : State) : (s.pixAutoTail).outcome = s.outcome := by
  unfold State.pixAutoTail; split <;> simp
@[simp] theorem State.pixAutoTail_ioPins (s : State) : (s.pixAutoTail).ioPins = s.ioPins := by
  unfold State.pixAutoTail; split <;> simp
@[simp] theorem State.pixAutoTail_inPins (s : State) : (s.pixAutoTail).inPins = s.inPins := by
  unfold State.pixAutoTail; split <;> simp
@[simp] theorem State.pixAutoTail_host (s : State) : (s.pixAutoTail).host = s.host := by
  unfold State.pixAutoTail; split <;> simp

/-! State.digAutoTail -/

@[simp] theorem State.digAutoTail_cfg (s : State) : (s.digAutoTail).cfg = s.cfg := by
  unfold State.digAutoTail; split <;> simp
@[simp] theorem State.digAutoTail_halted (s : State) : (s.digAutoTail).halted = s.halted := by
  unfold State.digAutoTail; split <;> simp
@[simp] theorem State.digAutoTail_pix (s : State) : (s.digAutoTail).pix = s.pix := by
  unfold State.digAutoTail; split <;> simp
@[simp] theorem State.digAutoTail_ioOut (s : State) : (s.digAutoTail).ioOut = s.ioOut := by
  unfold State.digAutoTail; split <;> simp
@[simp] theorem State.digAutoTail_ioIn (s : State) : (s.digAutoTail).ioIn = s.ioIn := by
  unfold State.digAutoTail; split <;> simp
@[simp] theorem State.digAutoTail_inBuf (s : State) : (s.digAutoTail).inBuf = s.inBuf := by
  unfold State.digAutoTail; split <;> simp
@[simp] theorem State.digAutoTail_dig (s : State) : (s.digAutoTail).dig = s.dig := by
  unfold State.digAutoTail; split <;> simp
@[simp] theorem State.digAutoTail_pixCfg (s : State) : (s.digAutoTail).pixCfg = s.pixCfg := by
  unfold State.digAutoTail; split <;> simp
@[simp] theorem State.digAutoTail_colorOrder (s : State) : (s.digAutoTail).colorOrder = s.colorOrder := by
  unfold State.digAutoTail; split <;> simp
@[simp] theorem State.digAutoTail_ioCfg (s : State) : (s.digAutoTail).ioCfg = s.ioCfg := by
  unfold State.digAutoTail; split <;> simp
@[simp] theorem State.digAutoTail_inCfg (s : State) : (s.digAutoTail).inCfg = s.inCfg := by
  unfold State.digAutoTail; split <;> simp
@[simp] theorem State.digAutoTail_digCfg (s : State) : (s.digAutoTail).digCfg = s.digCfg := by
  unfold State.digAutoTail; split <;> simp
@[simp] theorem State.digAutoTail_status (s : State) : (s.digAutoTail).status = s.status := by
  unfold State.digAutoTail; split <;> simp
@[simp] theorem State.digAutoTail_chase (s : State) : (s.digAutoTail).chase = s.chase := by
  unfold State.digAutoTail; split <;> simp
@[simp] theorem State.digAutoTail_toggles (s : State) : (s.digAutoTail).toggles = s.toggles := by
  unfold State.digAutoTail; split <;> simp
@[simp] theorem State.digAutoTail_selects (s : State) : (s.digAutoTail).selects = s.selects := by
  unfold State.digAutoTail; split <;> simp
@[simp] theorem State.digAutoTail_noLamps (s : State) : (s.digAutoTail).noLamps = s.noLamps := by
  unfold State.digAutoTail; split <;> simp
@[simp] theorem State.digAutoTail_result (s : State) : (s.digAutoTail).result = s.result := by
  unfold State.digAutoTail; split <;> simp
@[simp] theorem State.digAutoTail_outcome (s : State) : (s.digAutoTail).outcome = s.outcome := by
  unfold State.digAutoTail; split <;> simp
@[simp] theorem State.digAutoTail_ioPins (s : State) : (s.digAutoTail).ioPins = s.ioPins := by
  unfold State.digAutoTail; split <;> simp
@[simp] theorem State.digAutoTail_inPins (s : State) : (s.digAutoTail).inPins = s.inPins := by
  unfold State.digAutoTail; split <;> simp
@[simp] theorem State.digAutoTail_host (s : State) : (s.digAutoTail).host = s.host := by
  unfold State.digAutoTail; split <;> simp

/-! State.ioTransact -/

@[simp] theorem State.ioTransact_cfg (s : State) : (s.ioTransact).cfg = s.cfg := 
  State.ioTransact_keep State.cfg State.emit_cfg State.ioShiftBoard_cfg s
@[simp] theorem State.ioTransact_halted (s : State) : (s.ioTransact).halted = s.halted := 
  State.ioTransact_keep State.halted State.emit_halted State.ioShiftBoard_halted s
@[simp] theorem State.ioTransact_pix (s : State) : (s.ioTransact).pix = s.pix := 
  State.ioTransact_keep State.pix State.emit_pix State.ioShiftBoard_pix s
@[simp] theorem State.ioTransact_ioOut (s : State) : (s.ioTransact).ioOut = s.ioOut := 
  State.ioTransact_keep State.ioOut State.emit_ioOut State.ioShiftBoard_ioOut s
@[simp] theorem State.ioTransact_inBuf (s : State) : (s.ioTransact).inBuf = s.inBuf := 
  State.ioTransact_keep State.inBuf State.emit_inBuf State.ioShiftBoard_inBuf s
@[simp] theorem State.ioTransact_dig (s : State) : (s.ioTransact).dig = s.dig := 
  State.ioTransact_keep State.dig State.emit_dig State.ioShiftBoard_dig s
@[simp] theorem State.ioTransact_pixCfg (s : State) : (s.ioTransact).pixCfg = s.pixCfg := 
  State.ioTransact_keep State.pixCfg State.emit_pixCfg State.ioShiftBoard_pixCfg s
@[simp] theorem State.ioTransact_colorOrder (s : State) : (s.ioTransact).colorOrder = s.colorOrder := 
  State.ioTransact_keep State.colorOrder State.emit_colorOrder State.ioShiftBoard_colorOrder s
@[simp] theorem State.ioTransact_ioCfg (s : State) : (s.ioTransact).ioCfg = s.ioCfg := 
  State.ioTransact_keep State.ioCfg State.emit_ioCfg State.ioShiftBoard_ioCfg s
@[simp] theorem State.ioTransact_inCfg (s : State) : (s.ioTransact).inCfg = s.inCfg := 
  State.ioTransact_keep State.inCfg State.emit_inCfg State.ioShiftBoard_inCfg s
@[simp] theorem State.ioTransact_digCfg (s : State) : (s.ioTransact).digCfg = s.digCfg := 
  State.ioTransact_keep State.digCfg State.emit_digCfg State.ioShiftBoard_digCfg s
@[simp] theorem State.ioTransact_status (s : State) : (s.ioTransact).status = s.status := 
  State.ioTransact_keep State.status State.emit_status State.ioShiftBoard_status s
@[simp] theorem State.ioTransact_chase (s : State) : (s.ioTransact).chase = s.chase := 
  State.ioTransact_keep State.chase State.emit_chase State.ioShiftBoard_chase s
@[simp] theorem State.ioTransact_toggles (s : State) : (s.ioTransact).toggles = s.toggles := 
  State.ioTransact_keep State.toggles State.emit_toggles State.ioShiftBoard_toggles s
@[simp] theorem State.ioTransact_selects (s : State) : (s.ioTransact).selects = s.selects := 
  State.ioTransact_keep State.selects State.emit_selects State.ioShiftBoard_selects s
@[simp] theorem State.ioTransact_noLamps (s : State) : (s.ioTransact).noLamps = s.noLamps := 
  State.ioTransact_keep State.noLamps State.emit_noLamps State.ioShiftBoard_noLamps s
@[simp] theorem State.ioTransact_result (s : State) : (s.ioTransact).result = s.result := 
  State.ioTransact_keep State.result State.emit_result State.ioShiftBoard_result s
@[simp] theorem State.ioTransact_outcome (s : State) : (s.ioTransact).outcome = s.outcome := 
  State.ioTransact_keep State.outcome State.emit_outcome State.ioShiftBoard_outcome s
@[simp] theorem State.ioTransact_inPins (s : State) : (s.ioTransact).inPins = s.inPins := 
  State.ioTransact_keep State.inPins State.emit_inPins State.ioShiftBoard_inPins s
@[simp] theorem State.ioTransact_host (s : State) : (s.ioTransact).host = s.host := 
  State.ioTransact_keep State.host State.emit_host State.ioShiftBoard_host s

/-! State.ioAutoPre -/

@[simp] theorem State.ioAutoPre_cfg (s : State) : (s.ioAutoPre).cfg = s.cfg := by
  unfold State.ioAutoPre; split <;> simp
@[simp] theorem State.ioAutoPre_halted (s : State) : (s.ioAutoPre).halted = s.halted := by
  unfold State.ioAutoPre; split <;> simp
@[simp] theorem State.ioAutoPre_pix (s : State) : (s.ioAutoPre).pix = s.pix := by
  unfold State.ioAutoPre; split <;> simp
@[simp] theorem State.ioAutoPre_ioOut (s : State) : (s.ioAutoPre).ioOut = s.ioOut := by
  unfold State.ioAutoPre; split <;> simp
@[simp] theorem State.ioAutoPre_inBuf (s : State) : (s.ioAutoPre).inBuf = s.inBuf := by
  unfold State.ioAutoPre; split <;> simp
@[simp] theorem State.ioAutoPre_dig (s : State) : (s.ioAutoPre).dig = s.dig := by
  unfold State.ioAutoPre; split <;> simp
@[simp] theorem State.ioAutoPre_pixCfg (s : State) : (s.ioAutoPre).pixCfg = s.pixCfg := by
  unfold State.ioAutoPre; split <;> simp
@[simp] theorem State.ioAutoPre_colorOrder (s : State) : (s.ioAutoPre).colorOrder = s.colorOrder := by
  unfold State.ioAutoPre; split <;> simp
@[simp] theorem State.ioAutoPre_ioCfg (s : State) : (s.ioAutoPre).ioCfg = s.ioCfg := by
  unfold State.ioAutoPre; split <;> simp
@[simp] theorem State.ioAutoPre_inCfg (s : State) : (s.ioAutoPre).inCfg = s.inCfg := by
  unfold State.ioAutoPre; split <;> simp
@[simp] theorem State.ioAutoPre_digCfg (s : State) : (s.ioAutoPre).digCfg = s.digCfg := by
  unfold State.ioAutoPre; split <;> simp
@[simp] theorem State.ioAutoPre_status (s : State) : (s.ioAutoPre).status = s.status := by
  unfold State.ioAutoPre; split <;> simp
@[simp] theorem State.ioAutoPre_chase (s : State) : (s.ioAutoPre).chase = s.chase := by
  unfold State.ioAutoPre; split <;> simp
@[simp] theorem State.ioAutoPre_toggles (s : State) : (s.ioAutoPre).toggles = s.toggles := by
  unfold State.ioAutoPre; split <;> simp
@[simp] theorem State.ioAutoPre_selects (s : State) : (s.ioAutoPre).selects = s.selects := by
  unfold State.ioAutoPre; split <;> simp
@[simp] theorem State.ioAutoPre_noLamps (s : State) : (s.ioAutoPre).noLamps = s.noLamps := by
  unfold State.ioAutoPre; split <;> simp
@[simp] theorem State.ioAutoPre_result (s : State) : (s.ioAutoPre).result = s.result := by
  unfold State.ioAutoPre; split <;> simp
@[simp] theorem State.ioAutoPre_outcome (s : State) : (s.ioAutoPre).outcome = s.outcome := by
  unfold State.ioAutoPre; split <;> simp
@[simp] theorem State.ioAutoPre_inPins (s : State) : (s.ioAutoPre).inPins = s.inPins := by
  unfold State.ioAutoPre; split <;> simp
@[simp] theorem State.ioAutoPre_host (s : State) : (s.ioAutoPre).host = s.host := by
  unfold State.ioAutoPre; split <;> simp

/-! State.ioAutoPost -/

@[simp] theorem State.ioAutoPost_cfg (s : State) : (s.ioAutoPost).cfg = s.cfg := by
  unfold State.ioAutoPost; split <;> simp
@[simp] theorem State.ioAutoPost_halted (s : State) : (s.ioAutoPost).halted = s.halted := by
  unfold State.ioAutoPost; split <;> simp
@[simp] theorem State.ioAutoPost_pix (s : State) : (s.ioAutoPost).pix = s.pix := by
  unfold State.ioAutoPost; split <;> simp
@[simp] theorem State.ioAutoPost_ioOut (s : State) : (s.ioAutoPost).ioOut = s.ioOut := by
  unfold State.ioAutoPost; split <;> simp
@[simp] theorem State.ioAutoPost_inBuf (s : State) : (s.ioAutoPost).inBuf = s.inBuf := by
  unfold State.ioAutoPost; split <;> simp
@[simp] theorem State.ioAutoPost_dig (s : State) : (s.ioAutoPost).dig = s.dig := by
  unfold State.ioAutoPost; split <;> simp
@[simp] theorem State.ioAutoPost_pixCfg (s : State) : (s.ioAutoPost).pixCfg = s.pixCfg := by
  unfold State.ioAutoPost; split <;> simp
@[simp] theorem State.ioAutoPost_colorOrder (s : State) : (s.ioAutoPost).colorOrder = s.colorOrder := by
  unfold State.ioAutoPost; split <;> simp
@[simp] theorem State.ioAutoPost_ioCfg (s : State) : (s.ioAutoPost).ioCfg = s.ioCfg := by
  unfold State.ioAutoPost; split <;> simp
@[simp] theorem State.ioAutoPost_inCfg (s : State) : (s.ioAutoPost).inCfg = s.inCfg := by
  unfold State.ioAutoPost; split <;> simp
@[simp] theorem State.ioAutoPost_digCfg (s : State) : (s.ioAutoPost).digCfg = s.digCfg := by
  unfold State.ioAutoPost; split <;> simp
@[simp] theorem State.ioAutoPost_status (s : State) : (s.ioAutoPost).status = s.status := by
  unfold State.ioAutoPost; split <;> simp
@[simp] theorem State.ioAutoPost_chase (s : State) : (s.ioAutoPost).chase = s.chase := by
  unfold State.ioAutoPost; split <;> simp
@[simp] theorem State.ioAutoPost_toggles (s : State) : (s.ioAutoPost).toggles = s.toggles := by
  unfold State.ioAutoPost; split <;> simp
@[simp] theorem State.ioAutoPost_selects (s : State) : (s.ioAutoPost).selects = s.selects := by
  unfold State.ioAutoPost; split <;> simp
@[simp] theorem State.ioAutoPost_noLamps (s : State) : (s.ioAutoPost).noLamps = s.noLamps := by
  unfold State.ioAutoPost; split <;> simp
@[simp] theorem State.ioAutoPost_result (s : State) : (s.ioAutoPost).result = s.result := by
  unfold State.ioAutoPost; split <;> simp
@[simp] theorem State.ioAutoPost_outcome (s : State) : (s.ioAutoPost).outcome = s.outcome := by
  unfold State.ioAutoPost; split <;> simp
@[simp] theorem State.ioAutoPost_inPins (s : State) : (s.ioAutoPost).inPins = s.inPins := by
  unfold State.ioAutoPost; split <;> simp
@[simp] theorem State.ioAutoPost_host (s : State) : (s.ioAutoPost).host = s.host := by
  unfold State.ioAutoPost; split <;> simp

/-! State.inTransact -/

@[simp] theorem State.inTransact_cfg (s : State) : (s.inTransact).cfg = s.cfg := 
  State.inTransact_keep State.cfg State.emit_cfg State.inShiftBoard_cfg s
@[simp] theorem State.inTransact_halted (s : State) : (s.inTransact).halted = s.halted := 
  State.inTransact_keep State.halted State.emit_halted State.inShiftBoard_halted s
@[simp] theorem State.inTransact_pix (s : State) : (s.inTransact).pix = s.pix := 
  State.inTransact_keep State.pix State.emit_pix State.inShiftBoard_pix s
@[simp] theorem State.inTransact_ioOut (s : State) : (s.inTransact).ioOut = s.ioOut := 
  State.inTransact_keep State.ioOut State.emit_ioOut State.inShiftBoard_ioOut s
@[simp] theorem State.inTransact_ioIn (s : State) : (s.inTransact).ioIn = s.ioIn := 
  State.inTransact_keep State.ioIn State.emit_ioIn State.inShiftBoard_ioIn s
@[simp] theorem State.inTransact_dig (s : State) : (s.inTransact).dig = s.dig := 
  State.inTransact_keep State.dig State.emit_dig State.inShiftBoard_dig s
@[simp] theorem State.inTransact_pixCfg (s : State) : (s.inTransact).pixCfg = s.pixCfg := 
  State.inTransact_keep State.pixCfg State.emit_pixCfg State.inShiftBoard_pixCfg s
@[simp] theorem State.inTransact_colorOrder (s : State) : (s.inTransact).colorOrder = s.colorOrder := 
  State.inTransact_keep State.colorOrder State.emit_colorOrder State.inShiftBoard_colorOrder s
@[simp] theorem State.inTransact_ioCfg (s : State) : (s.inTransact).ioCfg = s.ioCfg := 
  State.inTransact_keep State.ioCfg State.emit_ioCfg State.inShiftBoard_ioCfg s
@[simp] theorem State.inTransact_inCfg (s : State) : (s.inTransact).inCfg = s.inCfg := 
  State.inTransact_keep State.inCfg State.emit_inCfg State.inShiftBoard_inCfg s
@[simp] theorem State.inTransact_digCfg (s : State) : (s.inTransact).digCfg = s.digCfg := 
  State.inTransact_keep State.digCfg State.emit_digCfg State.inShiftBoard_digCfg s
@[simp] theorem State.inTransact_status (s : State) : (s.inTransact).status = s.status := 
  State.inTransact_keep State.status State.emit_status State.inShiftBoard_status s
@[simp] theorem State.inTransact_chase (s : State) : (s.inTransact).chase = s.chase := 
  State.inTransact_keep State.chase State.emit_chase State.inShiftBoard_chase s
@[simp] theorem State.inTransact_toggles (s : State) : (s.inTransact).toggles = s.toggles := 
  State.inTransact_keep State.toggles State.emit_toggles State.inShiftBoard_toggles s
@[simp] theorem State.inTransact_selects (s : State) : (s.inTransact).selects = s.selects := 
  State.inTransact_keep State.selects State.emit_selects State.inShiftBoard_selects s
@[simp] theorem State.inTransact_noLamps (s : State) : (s.inTransact).noLamps = s.noLamps := 
  State.inTransact_keep State.noLamps State.emit_noLamps State.inShiftBoard_noLamps s
@[simp] theorem State.inTransact_result (s : State) : (s.inTransact).result = s.result := 
  State.inTransact_keep State.result State.emit_result State.inShiftBoard_result s
@[simp] theorem State.inTransact_outcome (s : State) : (s.inTransact).outcome = s.outcome := 
  State.inTransact_keep State.outcome State.emit_outcome State.inShiftBoard_outcome s
@[simp] theorem State.inTransact_ioPins (s : State) : (s.inTransact).ioPins = s.ioPins := 
  State.inTransact_keep State.ioPins State.emit_ioPins State.inShiftBoard_ioPins s
@[simp] theorem State.inTransact_host (s : State) : (s.inTransact).host = s.host := 
  State.inTransact_keep State.host State.emit_host State.inShiftBoard_host s

/-! State.inAutoPre -/

@[simp] theorem State.inAutoPre_cfg (s : State) : (s.inAutoPre).cfg = s.cfg := by
  unfold State.inAutoPre; split <;> simp
@[simp] theorem State.inAutoPre_halted (s : State) : (s.inAutoPre).halted = s.halted := by
  unfold State.inAutoPre; split <;> simp
@[simp] theorem State.inAutoPre_pix (s : State) : (s.inAutoPre).pix = s.pix := by
  unfold State.inAutoPre; split <;> simp
@[simp] theorem State.inAutoPre_ioOut (s : State) : (s.inAutoPre).ioOut = s.ioOut := by
  unfold State.inAutoPre; split <;> simp
@[simp] theorem State.inAutoPre_ioIn (s : State) : (s.inAutoPre).ioIn = s.ioIn := by
  unfold State.inAutoPre; split <;> simp
@[simp] theorem State.inAutoPre_dig (s : State) : (s.inAutoPre).dig = s.dig := by
  unfold State.inAutoPre; split <;> simp
@[simp] theorem State.inAutoPre_pixCfg (s : State) : (s.inAutoPre).pixCfg = s.pixCfg := by
  unfold State.inAutoPre; split <;> simp
@[simp] theorem State.inAutoPre_colorOrder (s : State) : (s.inAutoPre).colorOrder = s.colorOrder := by
  unfold State.inAutoPre; split <;> simp
@[simp] theorem State.inAutoPre_ioCfg (s : State) : (s.inAutoPre).ioCfg = s.ioCfg := by
  unfold State.inAutoPre; split <;> simp
@[simp] theorem State.inAutoPre_inCfg (s : State) : (s.inAutoPre).inCfg = s.inCfg := by
  unfold State.inAutoPre; split <;> simp
@[simp] theorem State.inAutoPre_digCfg (s : State) : (s.inAutoPre).digCfg = s.digCfg := by
  unfold State.inAutoPre; split <;> simp
@[simp] theorem State.inAutoPre_status (s : State) : (s.inAutoPre).status = s.status := by
  unfold State.inAutoPre; split <;> simp
@[simp] theorem State.inAutoPre_chase (s : State) : (s.inAutoPre).chase = s.chase := by
  unfold State.inAutoPre; split <;> simp
@[simp] theorem State.inAutoPre_toggles (s : State) : (s.inAutoPre).toggles = s.toggles := by
  unfold State.inAutoPre; split <;> simp
@[simp] theorem State.inAutoPre_selects (s : State) : (s.inAutoPre).selects = s.selects := by
  unfold State.inAutoPre; split <;> simp
@[simp] theorem State.inAutoPre_noLamps (s : State) : (s.inAutoPre).noLamps = s.noLamps := by
  unfold State.inAutoPre; split <;> simp
@[simp] theorem State.inAutoPre_result (s : State) : (s.inAutoPre).result = s.result := by
  unfold State.inAutoPre; split <;> simp
@[simp] theorem State.inAutoPre_outcome (s : State) : (s.inAutoPre).outcome = s.outcome := by
  unfold State.inAutoPre; split <;> simp
@[simp] theorem State.inAutoPre_ioPins (s : State) : (s.inAutoPre).ioPins = s.ioPins := by
  unfold State.inAutoPre; split <;> simp
@[simp] theorem State.inAutoPre_host (s : State) : (s.inAutoPre).host = s.host := by
  unfold State.inAutoPre; split <;> simp

/-! State.selLamps -/

@[simp] theorem State.selLamps_cfg (s : State) (sc : SelectCfg) (st : Option Nat) : (s.selLamps sc st).cfg = s.cfg :=
  foldl_keep _ State.cfg (fun s i => State.setLampBit_cfg s (sc.offset + i) (selLamp sc st i)) _ _
@[simp] theorem State.selLamps_halted (s : State) (sc : SelectCfg) (st : Option Nat) : (s.selLamps sc st).halted = s.halted :=
  foldl_keep _ State.halted (fun s i => State.setLampBit_halted s (sc.offset + i) (selLamp sc st i)) _ _
@[simp] theorem State.selLamps_pix (s : State) (sc : SelectCfg) (st : Option Nat) : (s.selLamps sc st).pix = s.pix :=
  foldl_keep _ State.pix (fun s i => State.setLampBit_pix s (sc.offset + i) (selLamp sc st i)) _ _
@[simp] theorem State.selLamps_ioIn (s : State) (sc : SelectCfg) (st : Option Nat) : (s.selLamps sc st).ioIn = s.ioIn :=
  foldl_keep _ State.ioIn (fun s i => State.setLampBit_ioIn s (sc.offset + i) (selLamp sc st i)) _ _
@[simp] theorem State.selLamps_inBuf (s : State) (sc : SelectCfg) (st : Option Nat) : (s.selLamps sc st).inBuf = s.inBuf :=
  foldl_keep _ State.inBuf (fun s i => State.setLampBit_inBuf s (sc.offset + i) (selLamp sc st i)) _ _
@[simp] theorem State.selLamps_dig (s : State) (sc : SelectCfg) (st : Option Nat) : (s.selLamps sc st).dig = s.dig :=
  foldl_keep _ State.dig (fun s i => State.setLampBit_dig s (sc.offset + i) (selLamp sc st i)) _ _
@[simp] theorem State.selLamps_pixCfg (s : State) (sc : SelectCfg) (st : Option Nat) : (s.selLamps sc st).pixCfg = s.pixCfg :=
  foldl_keep _ State.pixCfg (fun s i => State.setLampBit_pixCfg s (sc.offset + i) (selLamp sc st i)) _ _
@[simp] theorem State.selLamps_colorOrder (s : State) (sc : SelectCfg) (st : Option Nat) : (s.selLamps sc st).colorOrder = s.colorOrder :=
  foldl_keep _ State.colorOrder (fun s i => State.setLampBit_colorOrder s (sc.offset + i) (selLamp sc st i)) _ _
@[simp] theorem State.selLamps_ioCfg (s : State) (sc : SelectCfg) (st : Option Nat) : (s.selLamps sc st).ioCfg = s.ioCfg :=
  foldl_keep _ State.ioCfg (fun s i => State.setLampBit_ioCfg s (sc.offset + i) (selLamp sc st i)) _ _
@[simp] theorem State.selLamps_inCfg (s : State) (sc : SelectCfg) (st : Option Nat) : (s.selLamps sc st).inCfg = s.inCfg :=
  foldl_keep _ State.inCfg (fun s i => State.setLampBit_inCfg s (sc.offset + i) (selLamp sc st i)) _ _
@[simp] theorem State.selLamps_digCfg (s : State) (sc : SelectCfg) (st : Option Nat) : (s.selLamps sc st).digCfg = s.digCfg :=
  foldl_keep _ State.digCfg (fun s i => State.setLampBit_digCfg s (sc.offset + i) (selLamp sc st i)) _ _
@[simp] theorem State.selLamps_status (s : State) (sc : SelectCfg) (st : Option Nat) : (s.selLamps sc st).status = s.status :=
  foldl_keep _ State.status (fun s i => State.setLampBit_status s (sc.offset + i) (selLamp sc st i)) _ _
@[simp] theorem State.selLamps_chase (s : State) (sc : SelectCfg) (st : Option Nat) : (s.selLamps sc st).chase = s.chase :=
  foldl_keep _ State.chase (fun s i => State.setLampBit_chase s (sc.offset + i) (selLamp sc st i)) _ _
@[simp] theorem State.selLamps_toggles (s : State) (sc : SelectCfg) (st : Option Nat) : (s.selLamps sc st).toggles = s.toggles :=
  foldl_keep _ State.toggles (fun s i => State.setLampBit_toggles s (sc.offset + i) (selLamp sc st i)) _ _
@[simp] theorem State.selLamps_selects (s : State) (sc : SelectCfg) (st : Option Nat) : (s.selLamps sc st).selects = s.selects :=
  foldl_keep _ State.selects (fun s i => State.setLampBit_selects s (sc.offset + i) (selLamp sc st i)) _ _
@[simp] theorem State.selLamps_noLamps (s : State) (sc : SelectCfg) (st : Option Nat) : (s.selLamps sc st).noLamps = s.noLamps :=
  foldl_keep _ State.noLamps (fun s i => State.setLampBit_noLamps s (sc.offset + i) (selLamp sc st i)) _ _
@[simp] theorem State.selLamps_pins (s : State) (sc : SelectCfg) (st : Option Nat) : (s.selLamps sc st).pins = s.pins :=
  foldl_keep _ State.pins (fun s i => State.setLampBit_pins s (sc.offset + i) (selLamp sc st i)) _ _
@[simp] theorem State.selLamps_result (s : State) (sc : SelectCfg) (st : Option Nat) : (s.selLamps sc st).result = s.result :=
  foldl_keep _ State.result (fun s i => State.setLampBit_result s (sc.offset + i) (selLamp sc st i)) _ _
@[simp] theorem State.selLamps_outcome (s : State) (sc : SelectCfg) (st : Option Nat) : (s.selLamps sc st).outcome = s.outcome :=
  foldl_keep _ State.outcome (fun s i => State.setLampBit_outcome s (sc.offset + i) (selLamp sc st i)) _ _
@[simp] theorem State.selLamps_trace (s : State) (sc : SelectCfg) (st : Option Nat) : (s.selLamps sc st).trace = s.trace :=
  foldl_keep _ State.trace (fun s i => State.setLampBit_trace s (sc.offset + i) (selLamp sc st i)) _ _
@[simp] theorem State.selLamps_ioPins (s : State) (sc : SelectCfg) (st : Option Nat) : (s.selLamps sc st).ioPins = s.ioPins :=
  foldl_keep _ State.ioPins (fun s i => State.setLampBit_ioPins s (sc.offset + i) (selLamp sc st i)) _ _
@[simp] theorem State.selLamps_inPins (s : State) (sc : SelectCfg) (st : Option Nat) : (s.selLamps sc st).inPins = s.inPins :=
  foldl_keep _ State.inPins (fun s i => State.setLampBit_inPins s (sc.offset + i) (selLamp sc st i)) _ _
@[simp] theorem State.selLamps_host (s : State) (sc : SelectCfg) (st : Option Nat) : (s.selLamps sc st).host = s.host :=
  foldl_keep _ State.host (fun s i => State.setLampBit_host s (sc.offset + i) (selLamp sc st i)) _ _

/-! Buffers keep their addresses -/

@[simp] theorem State.ioTransact_ioIn_addrs (s : State) : s.ioTransact.ioIn.addrs = s.ioIn.addrs :=
  State.ioTransact_keep (fun s => s.ioIn.addrs) (fun s es => by simp only [State.emit_ioIn])
    (fun s b => by simp only [State.ioShiftBoard, Memory.addrs_write]) s

@[simp] theorem State.ioAutoPre_ioIn_addrs (s : State) : s.ioAutoPre.ioIn.addrs = s.ioIn.addrs := by
  unfold State.ioAutoPre; split <;> simp

@[simp] theorem State.ioAutoPost_ioIn_addrs (s : State) : s.ioAutoPost.ioIn.addrs = s.ioIn.addrs := by
  unfold State.ioAutoPost; split <;> simp

@[simp] theorem State.inTransact_inBuf_addrs (s : State) : s.inTransact.inBuf.addrs = s.inBuf.addrs :=
  State.inTransact_keep (fun s => s.inBuf.addrs) (fun s es => by simp only [State.emit_inBuf])
    (fun s b => by simp only [State.inShiftBoard, Memory.addrs_write]) s

@[simp] theorem State.inAutoPre_inBuf_addrs (s : State) : s.inAutoPre.inBuf.addrs = s.inBuf.addrs := by
  unfold State.inAutoPre; split <;> simp

@[simp] theorem State.selLamps_ioOut_addrs (s : State) (sc : SelectCfg) (st : Option Nat) :
    (s.selLamps sc st).ioOut.addrs = s.ioOut.addrs :=
  foldl_keep _ (fun s : State => s.ioOut.addrs) (fun s i => by simp) _ _

/-! Reads of the buffers a transaction leaves -/

@[simp] theorem State.pixTransmit_byte_pix (s : State) (a : Nat) : (s.pixTransmit).byte .pix a = s.byte .pix a := by
  simp [State.byte, State.space]
@[simp] theorem State.pixTransmit_byte_ioOut (s : State) (a : Nat) : (s.pixTransmit).byte .ioOut a = s.byte .ioOut a := by
  simp [State.byte, State.space]
@[simp] theorem State.pixTransmit_byte_ioIn (s : State) (a : Nat) : (s.pixTransmit).byte .ioIn a = s.byte .ioIn a := by
  simp [State.byte, State.space]
@[simp] theorem State.pixTransmit_byte_inBuf (s : State) (a : Nat) : (s.pixTransmit).byte .inBuf a = s.byte .inBuf a := by
  simp [State.byte, State.space]
@[simp] theorem State.pixTransmit_byte_dig (s : State) (a : Nat) : (s.pixTransmit).byte .dig a = s.byte .dig a := by
  simp [State.byte, State.space]
@[simp] theorem State.digTransmit_byte_pix (s : State) (a : Nat) : (s.digTransmit).byte .pix a = s.byte .pix a := by
  simp [State.byte, State.space]
@[simp] theorem State.digTransmit_byte_ioOut (s : State) (a : Nat) : (s.digTransmit).byte .ioOut a = s.byte .ioOut a := by
  simp [State.byte, State.space]
@[simp] theorem State.digTransmit_byte_ioIn (s : State) (a : Nat) : (s.digTransmit).byte .ioIn a = s.byte .ioIn a := by
  simp [State.byte, State.space]
@[simp] theorem State.digTransmit_byte_inBuf (s : State) (a : Nat) : (s.digTransmit).byte .inBuf a = s.byte .inBuf a := by
  simp [State.byte, State.space]
@[simp] theorem State.digTransmit_byte_dig (s : State) (a : Nat) : (s.digTransmit).byte .dig a = s.byte .dig a := by
  simp [State.byte, State.space]
@[simp] theorem State.pixAutoTail_byte_pix (s : State) (a : Nat) : (s.pixAutoTail).byte .pix a = s.byte .pix a := by
  simp [State.byte, State.space]
@[simp] theorem State.pixAutoTail_byte_ioOut (s : State) (a : Nat) : (s.pixAutoTail).byte .ioOut a = s.byte .ioOut a := by
  simp [State.byte, State.space]
@[simp] theorem State.pixAutoTail_byte_ioIn (s : State) (a : Nat) : (s.pixAutoTail).byte .ioIn a = s.byte .ioIn a := by
  simp [State.byte, State.space]
@[simp] theorem State.pixAutoTail_byte_inBuf (s : State) (a : Nat) : (s.pixAutoTail).byte .inBuf a = s.byte .inBuf a := by
  simp [State.byte, State.space]
@[simp] theorem State.pixAutoTail_byte_dig (s : State) (a : Nat) : (s.pixAutoTail).byte .dig a = s.byte .dig a := by
  simp [State.byte, State.space]
@[simp] theorem State.digAutoTail_byte_pix (s : State) (a : Nat) : (s.digAutoTail).byte .pix a = s.byte .pix a := by
  simp [State.byte, State.space]
@[simp] theorem State.digAutoTail_byte_ioOut (s : State) (a : Nat) : (s.digAutoTail).byte .ioOut a = s.byte .ioOut a := by
  simp [State.byte, State.space]
@[simp] theorem State.digAutoTail_byte_ioIn (s : State) (a : Nat) : (s.digAutoTail).byte .ioIn a = s.byte .ioIn a := by
  simp [State.byte, State.space]
@[simp] theorem State.digAutoTail_byte_inBuf (s : State) (a : Nat) : (s.digAutoTail).byte .inBuf a = s.byte .inBuf a := by
  simp [State.byte, State.space]
@[simp] theorem State.digAutoTail_byte_dig (s : State) (a : Nat) : (s.digAutoTail).byte .dig a = s.byte .dig a := by
  simp [State.byte, State.space]
@[simp] theorem State.ioTransact_byte_pix (s : State) (a : Nat) : (s.ioTransact).byte .pix a = s.byte .pix a := by
  simp [State.byte, State.space]
@[simp] theorem State.ioTransact_byte_ioOut (s : State) (a : Nat) : (s.ioTransact).byte .ioOut a = s.byte .ioOut a := by
  simp [State.byte, State.space]
@[simp] theorem State.ioTransact_byte_inBuf (s : State) (a : Nat) : (s.ioTransact).byte .inBuf a = s.byte .inBuf a := by
  simp [State.byte, State.space]
@[simp] theorem State.ioTransact_byte_dig (s : State) (a : Nat) : (s.ioTransact).byte .dig a = s.byte .dig a := by
  simp [State.byte, State.space]
@[simp] theorem State.ioAutoPre_byte_pix (s : State) (a : Nat) : (s.ioAutoPre).byte .pix a = s.byte .pix a := by
  simp [State.byte, State.space]
@[simp] theorem State.ioAutoPre_byte_ioOut (s : State) (a : Nat) : (s.ioAutoPre).byte .ioOut a = s.byte .ioOut a := by
  simp [State.byte, State.space]
@[simp] theorem State.ioAutoPre_byte_inBuf (s : State) (a : Nat) : (s.ioAutoPre).byte .inBuf a = s.byte .inBuf a := by
  simp [State.byte, State.space]
@[simp] theorem State.ioAutoPre_byte_dig (s : State) (a : Nat) : (s.ioAutoPre).byte .dig a = s.byte .dig a := by
  simp [State.byte, State.space]
@[simp] theorem State.ioAutoPost_byte_pix (s : State) (a : Nat) : (s.ioAutoPost).byte .pix a = s.byte .pix a := by
  simp [State.byte, State.space]
@[simp] theorem State.ioAutoPost_byte_ioOut (s : State) (a : Nat) : (s.ioAutoPost).byte .ioOut a = s.byte .ioOut a := by
  simp [State.byte, State.space]
@[simp] theorem State.ioAutoPost_byte_inBuf (s : State) (a : Nat) : (s.ioAutoPost).byte .inBuf a = s.byte .inBuf a := by
  simp [State.byte, State.space]
@[simp] theorem State.ioAutoPost_byte_dig (s : State) (a : Nat) : (s.ioAutoPost).byte .dig a = s.byte .dig a := by
  simp [State.byte, State.space]
@[simp] theorem State.inTransact_byte_pix (s : State) (a : Nat) : (s.inTransact).byte .pix a = s.byte .pix a := by
  simp [State.byte, State.space]
@[simp] theorem State.inTransact_byte_ioOut (s : State) (a : Nat) : (s.inTransact).byte .ioOut a = s.byte .ioOut a := by
  simp [State.byte, State.space]
@[simp] theorem State.inTransact_byte_ioIn (s : State) (a : Nat) : (s.inTransact).byte .ioIn a = s.byte .ioIn a := by
  simp [State.byte, State.space]
@[simp] theorem State.inTransact_byte_dig (s : State) (a : Nat) : (s.inTransact).byte .dig a = s.byte .dig a := by
  simp [State.byte, State.space]
@[simp] theorem State.inAutoPre_byte_pix (s : State) (a : Nat) : (s.inAutoPre).byte .pix a = s.byte .pix a := by
  simp [State.byte, State.space]
@[simp] theorem State.inAutoPre_byte_ioOut (s : State) (a : Nat) : (s.inAutoPre).byte .ioOut a = s.byte .ioOut a := by
  simp [State.byte, State.space]
@[simp] theorem State.inAutoPre_byte_ioIn (s : State) (a : Nat) : (s.inAutoPre).byte .ioIn a = s.byte .ioIn a := by
  simp [State.byte, State.space]
@[simp] theorem State.inAutoPre_byte_dig (s : State) (a : Nat) : (s.inAutoPre).byte .dig a = s.byte .dig a := by
  simp [State.byte, State.space]

end Sys2Proof.Machine
end

