-- ==== Sys2Proof/Laws/Decode.lean ====
section
/-! SUPPORT. The small lemmas of the decoder and the encoder (30_encoding.md): opcodes, fields, masks and layouts. -/

namespace Sys2Proof

/-- Every opcode is in the map (R95). -/
theorem Opcode.mem_all (o : Opcode) : o ∈ Opcode.all := by cases o <;> decide

/-- The opcode map lists no code twice, so a code names its opcode (R95). -/
@[simp] theorem Opcode.ofCode_code (o : Opcode) : Opcode.ofCode o.code = some o := by cases o <;> rfl

/-- The opcode a code names has that code. -/
theorem Opcode.code_of_ofCode {b : BitVec 8} {o : Opcode} (h : Opcode.ofCode b = some o) : o.code = b := by
  simpa using List.find?_some h

@[simp] theorem fieldOpc_packWord (c : BitVec 8) (u a : Nat) (b : Word) : fieldOpc (packWord c u a b) = c := by
  apply BitVec.eq_of_getLsbD_eq
  intro i hi
  simp only [fieldOpc, packWord, BitVec.getLsbD_extractLsb', BitVec.getLsbD_append, hi, decide_true, Bool.true_and]
  have h1 : ¬ 56 + i < 32 := by omega
  have h2 : ¬ 56 + i - 32 < 16 := by omega
  have h3 : ¬ 56 + i - 32 - 16 < 8 := by omega
  simp only [h1, h2, h3, if_false]
  congr 1; omega

@[simp] theorem fieldUnit_packWord (c : BitVec 8) (u a : Nat) (b : Word) :
    fieldUnit (packWord c u a b) = BitVec.ofNat 8 u := by
  apply BitVec.eq_of_getLsbD_eq
  intro i hi
  simp only [fieldUnit, packWord, BitVec.getLsbD_extractLsb', BitVec.getLsbD_append, hi, decide_true, Bool.true_and]
  have h1 : ¬ 48 + i < 32 := by omega
  have h2 : ¬ 48 + i - 32 < 16 := by omega
  have h3 : 48 + i - 32 - 16 < 8 := by omega
  simp only [h1, h2, h3, if_false, if_true]
  congr 1; omega

@[simp] theorem fieldA_packWord (c : BitVec 8) (u a : Nat) (b : Word) :
    fieldA (packWord c u a b) = BitVec.ofNat 16 a := by
  apply BitVec.eq_of_getLsbD_eq
  intro i hi
  simp only [fieldA, packWord, BitVec.getLsbD_extractLsb', BitVec.getLsbD_append, hi, decide_true, Bool.true_and]
  have h1 : ¬ 32 + i < 32 := by omega
  have h2 : 32 + i - 32 < 16 := by omega
  simp only [h1, h2, if_false, if_true]
  congr 1; omega

@[simp] theorem fieldB_packWord (c : BitVec 8) (u a : Nat) (b : Word) : fieldB (packWord c u a b) = b := by
  apply BitVec.eq_of_getLsbD_eq
  intro i hi
  simp only [fieldB, packWord, BitVec.getLsbD_extractLsb', BitVec.getLsbD_append, hi, decide_true, Bool.true_and]
  have h1 : 0 + i < 32 := by omega
  simp only [h1, if_true]
  congr 1; omega

/-- A word is its four fields in their places (R90, R91). -/
theorem packWord_fields (w : CmdWord) :
    packWord (fieldOpc w) (fieldUnit w).toNat (fieldA w).toNat (fieldB w) = w := by
  apply BitVec.eq_of_getLsbD_eq
  intro i hi
  simp only [fieldOpc, fieldUnit, fieldA, fieldB, packWord, BitVec.ofNat_toNat, BitVec.setWidth_eq,
    BitVec.getLsbD_append, BitVec.getLsbD_extractLsb']
  by_cases h1 : i < 32
  · simp [h1]
  · by_cases h2 : i - 32 < 16
    · simp [h1, h2]; congr 1; omega
    · by_cases h3 : i - 32 - 16 < 8
      · simp [h1, h2, h3]; congr 1; omega
      · have h4 : i - 32 - 16 - 8 < 8 := by omega
        simp [h1, h2, h3, h4]; congr 1; omega

theorem append_and_append {m n : Nat} (x x' : BitVec m) (y y' : BitVec n) :
    (x ++ y) &&& (x' ++ y') = (x &&& x') ++ (y &&& y') := by
  apply BitVec.eq_of_getLsbD_eq
  intro i hi
  simp only [BitVec.getLsbD_and, BitVec.getLsbD_append]
  split <;> rfl

/-- The reserved bits of a word are zero field by field (R96, R98). -/
theorem packWord_and_resMask (o : Opcode) (c : BitVec 8) (u a : Nat) (b : Word) :
    packWord c u a b &&& o.resMask = 0 ↔
      (o.unitKind = .single → BitVec.ofNat 8 u = 0) ∧ (o.takesA = false → BitVec.ofNat 16 a = 0) ∧
        b &&& o.layout.reserved = 0 := by
  have key : packWord c u a b &&& o.resMask =
      (0#8 ++ (BitVec.ofNat 8 u &&& (if o.unitKind = .single then 0xFF#8 else 0#8)) ++
        (BitVec.ofNat 16 a &&& (if o.takesA then 0#16 else 0xFFFF#16)) ++ (b &&& o.layout.reserved) : CmdWord) := by
    unfold packWord Opcode.resMask
    exact (append_and_append _ _ _ _).trans (by rw [append_and_append, append_and_append, BitVec.and_zero])
  have zero : ∀ (x : BitVec 8) (y : BitVec 16) (z : Word),
      (0#8 ++ x ++ y ++ z : CmdWord) = 0 ↔ x = 0 ∧ y = 0 ∧ z = 0 := by
    intro x y z
    constructor
    · intro h
      have hp : (0#8 ++ x ++ y ++ z : CmdWord) = packWord 0 x.toNat y.toNat z := by simp [packWord]
      rw [hp] at h
      have h1 := congrArg fieldUnit h
      have h2 := congrArg fieldA h
      have h3 := congrArg fieldB h
      simp at h1 h2 h3
      exact ⟨by rw [h1]; rfl, by rw [h2]; rfl, by rw [h3]; rfl⟩
    · rintro ⟨rfl, rfl, rfl⟩; rfl
  rw [key, zero]
  have hu : BitVec.ofNat 8 u &&& 0xFF#8 = BitVec.ofNat 8 u := BitVec.and_allOnes
  have ha : BitVec.ofNat 16 a &&& 0xFFFF#16 = BitVec.ofNat 16 a := BitVec.and_allOnes
  by_cases h1 : o.unitKind = .single <;> cases h2 : o.takesA <;> simp [h1, hu, ha]

/-- Decoding a packed word: the opcode's build of its fields, where the reserved bits are zero. -/
theorem decode_packWord (o : Opcode) (u a : Nat) (b : Word) :
    decode (packWord o.code u a b) =
      if packWord o.code u a b &&& o.resMask ≠ 0 then .error .reservedBits
      else .ok (o.build (BitVec.ofNat 8 u).toNat (BitVec.ofNat 16 a).toNat b) := by
  simp [decode]

/-- A value below 2^k has no bit at or above k. -/
theorem and_shl_eq_zero (x : Word) (k : Nat) (h : x.toNat < 2 ^ k) : x &&& (BitVec.allOnes 32 <<< k) = 0 := by
  apply BitVec.eq_of_getLsbD_eq
  intro i hi
  simp only [BitVec.getLsbD_and, BitVec.getLsbD_shiftLeft, BitVec.getLsbD_allOnes, BitVec.ofNat_eq_ofNat,
    BitVec.getLsbD_zero]
  by_cases hk : i < k
  · simp [hk]
  · have : x.getLsbD i = false :=
      Nat.testBit_lt_two_pow (Nat.lt_of_lt_of_le h (Nat.pow_le_pow_right (by omega) (by omega)))
    simp [this]

/-- The reserved bits of a layout are those above its value bits (R93). -/
theorem layout_reserved_and (l : Layout) (k : Nat) (x : Word) (hl : l.reserved = BitVec.allOnes 32 <<< k)
    (h : x.toNat < 2 ^ k) : x &&& l.reserved = 0 := hl ▸ and_shl_eq_zero x k h

end Sys2Proof
end

