-- ==== Sys2Proof/Laws/Wire.lean ====
section
/-! SUPPORT. What each transaction does, said once: its events, the bytes it stores, and the pins after it
(42_ioboard.md R182, 43_inputchain.md R200, 41_pixel.md R147, 44_digits.md R217). -/

namespace Sys2Proof.Machine

open Sys2Proof.Safety

/-! ### Lists -/

/-- The k-th element of blocks of n laid end to end. -/
theorem getElem?_flatMap_const {α β : Type} (f : α → List β) (n : Nat) (hn : 0 < n) (hf : ∀ a, (f a).length = n)
    (l : List α) (k : Nat) : (l.flatMap f)[k]? = (l[k / n]?).bind fun a => (f a)[k % n]? := by
  induction l generalizing k with
  | nil => simp
  | cons a l ih =>
    rw [List.flatMap_cons]
    by_cases h : k < n
    · rw [List.getElem?_append_left (by rw [hf]; exact h), Nat.div_eq_of_lt h, Nat.mod_eq_of_lt h]
      rfl
    · have hk : k = (k - n) + n := by omega
      rw [List.getElem?_append_right (by rw [hf]; omega), hf, ih]
      conv_rhs => rw [hk, Nat.add_div_right _ hn, Nat.add_mod_right]
      simp

theorem length_flatMap_const {α β : Type} (f : α → List β) (n : Nat) (hf : ∀ a, (f a).length = n) (l : List α) :
    (l.flatMap f).length = n * l.length := by
  induction l with
  | nil => simp
  | cons a l ih => simp [List.flatMap_cons, hf, ih, Nat.mul_add, Nat.add_comm]

/-- A list is what its `getD` gives at each index. -/
theorem map_range_getD {α β : Type} (l : List α) (d : α) (f : α → β) :
    (List.range l.length).map (fun k => f (l.getD k d)) = l.map f := by
  apply List.ext_getElem
  · simp
  · intro i h1 h2
    have h : i < l.length := by simpa using h2
    simp [List.getD, List.getElem?_eq_getElem h]

/-! ### Bytes and bits -/

@[simp] theorem length_msbBits (v : Byte) : (msbBits v).length = 8 := rfl

theorem msbBits_getElem? (v : Byte) (k : Nat) (hk : k < 8) : (msbBits v)[k]? = some (v.getLsbD (7 - k)) := by
  have : k = 0 ∨ k = 1 ∨ k = 2 ∨ k = 3 ∨ k = 4 ∨ k = 5 ∨ k = 6 ∨ k = 7 := by omega
  rcases this with rfl | rfl | rfl | rfl | rfl | rfl | rfl | rfl <;> rfl

theorem getLsbD_byteOfMsb8 (a b c d e f g h : Bool) :
    msbBits (byteOfMsb [a, b, c, d, e, f, g, h]) = [a, b, c, d, e, f, g, h] := by
  cases a <;> cases b <;> cases c <;> cases d <;> cases e <;> cases f <;> cases g <;> cases h <;> decide

/-- Eight bits in wire order and the byte built from them (20_memory.md R64). -/
theorem msbBits_byteOfMsb (l : List Bool) (h : l.length = 8) : msbBits (byteOfMsb l) = l := by
  match l, h with
  | [a, b, c, d, e, f, g, i], _ => exact getLsbD_byteOfMsb8 a b c d e f g i

/-- The bit received (7 − i)-th becomes bit i (R64). -/
theorem getLsbD_byteOfMsb (l : List Bool) (h : l.length = 8) (i : Nat) (hi : i < 8) :
    (byteOfMsb l).getLsbD i = l.getD (7 - i) false := by
  have h1 := msbBits_getElem? (byteOfMsb l) (7 - i) (by omega)
  rw [msbBits_byteOfMsb l h] at h1
  simp [List.getD, h1, show 7 - (7 - i) = i by omega]

theorem byteOfMsb_msbBits (v : Byte) : byteOfMsb (msbBits v) = v := by
  apply BitVec.eq_of_getLsbD_eq
  intro i hi
  rw [getLsbD_byteOfMsb _ rfl i hi]
  simp [List.getD, msbBits_getElem? v (7 - i) (by omega), show 7 - (7 - i) = i by omega]

theorem getLsbD_xor_invMask (v : Byte) (inv : Bool) (i : Nat) (hi : i < 8) :
    (v ^^^ invMask inv).getLsbD i = (v.getLsbD i ^^ inv) := by
  have : i = 0 ∨ i = 1 ∨ i = 2 ∨ i = 3 ∨ i = 4 ∨ i = 5 ∨ i = 6 ∨ i = 7 := by omega
  rcases this with rfl | rfl | rfl | rfl | rfl | rfl | rfl | rfl <;> cases inv <;> simp [invMask]

/-- The spec-level cells of an output byte are the channel operation's. -/
theorem outCells_eq (ch : Channel) (v : Byte) : outCells ch v = shiftOutByte ch v := rfl

@[simp] theorem shiftPixByte_eq (t : Transport) (v : Byte) : shiftPixByte t v = shiftOutByte .pix v := by
  cases t <;> rfl

/-! ### Draws -/

@[simp] theorem PinSource.length_drawN (ch : Channel) (n : Nat) (p : PinSource) : (p.drawN ch n).1.length = n := by
  induction n generalizing p with
  | zero => rfl
  | succ n ih => simp [PinSource.drawN, ih]

/-- Drawing m bits and then n is drawing m + n (R74). -/
theorem PinSource.drawN_add (ch : Channel) (m n : Nat) (p : PinSource) :
    p.drawN ch (m + n) = ((p.drawN ch m).1 ++ ((p.drawN ch m).2.drawN ch n).1, ((p.drawN ch m).2.drawN ch n).2) := by
  induction m generalizing p with
  | zero => simp [PinSource.drawN]
  | succ m ih =>
    rw [Nat.succ_add]
    simp [PinSource.drawN, ih]

/-! ### The wire -/

/-- Between two states the wire only grew. -/
def Grew (s t : State) : Prop := t.cfg = s.cfg ∧ ∃ es, Wired s t es

theorem Grew.refl (s : State) : Grew s s := ⟨rfl, [], by simp [Wired]⟩

theorem Grew.trans {s t u : State} (h : Grew s t) (h' : Grew t u) : Grew s u := by
  obtain ⟨c, es, h1, h2⟩ := h
  obtain ⟨c', es', h1', h2'⟩ := h'
  exact ⟨c'.trans c, es ++ es', by rw [h1', h1, List.append_assoc], by rw [h2', h2, List.foldl_append, c]⟩

theorem State.emit_grew (s : State) (es : List Event) : Grew s (s.emit es) := ⟨rfl, es, rfl, rfl⟩

theorem foldl_grew {β : Type} (f : State → β → State) (h : ∀ s b, Grew s (f s b)) (l : List β) (s : State) :
    Grew s (l.foldl f s) := by
  induction l generalizing s with
  | nil => exact Grew.refl s
  | cons b l ih => exact (h s b).trans (ih (f s b))

/-- What the trace grew by is what the pins followed. -/
theorem Grew.wired {s t : State} {es : List Event} (h : Grew s t) (ht : t.trace = s.trace ++ es) : Wired s t es := by
  obtain ⟨_, es', h1, h2⟩ := h
  have : es = es' := List.append_cancel_left (ht.symm.trans h1)
  exact ⟨ht, this ▸ h2⟩

theorem State.ioShiftBoard_grew (s : State) (b : Nat) : Grew s (s.ioShiftBoard b) := ⟨by simp, _, rfl, rfl⟩

theorem State.inShiftBoard_grew (s : State) (b : Nat) : Grew s (s.inShiftBoard b) := ⟨by simp, _, rfl, rfl⟩

theorem State.ioTransact_grew (s : State) : Grew s s.ioTransact :=
  ((State.emit_grew s _).trans (foldl_grew _ State.ioShiftBoard_grew _ _)).trans (State.emit_grew _ _)

theorem State.inTransact_grew (s : State) : Grew s s.inTransact :=
  ((State.emit_grew s _).trans (foldl_grew _ State.inShiftBoard_grew _ _)).trans (State.emit_grew _ _)

theorem State.pixTransmit_grew (s : State) : Grew s s.pixTransmit := State.emit_grew s _

theorem State.digTransmit_grew (s : State) : Grew s s.digTransmit := State.emit_grew s _

/-! ### IoTransact -/

/-- The writes of the boards `l` of an IoTransact whose draws are `ds`. -/
def ioWrites (inv : Bool) : List Nat → List Bool → List (Nat × Byte)
  | [], _ => []
  | b :: l, ds => (b, byteOfMsb (ds.take 8) ^^^ invMask inv) :: ioWrites inv l (ds.drop 8)

theorem mem_ioWrites (inv : Bool) (l : List Nat) (ds : List Bool) (p : Nat × Byte) :
    p ∈ ioWrites inv l ds ↔ ∃ j, l[j]? = some p.1 ∧ p.2 = byteOfMsb ((ds.drop (8 * j)).take 8) ^^^ invMask inv := by
  induction l generalizing ds with
  | nil => simp [ioWrites]
  | cons b l ih =>
    simp only [ioWrites, List.mem_cons, ih]
    constructor
    · rintro (rfl | ⟨j, h1, h2⟩)
      · exact ⟨0, by simp⟩
      · exact ⟨j + 1, by simpa using h1, by rw [h2, List.drop_drop]; congr 4; omega⟩
    · rintro ⟨j, h1, h2⟩
      cases j with
      | zero => left; exact Prod.ext (by simpa using h1.symm) (by simpa using h2)
      | succ j => exact Or.inr ⟨j, by simpa using h1, by rw [h2, List.drop_drop]; congr 4; omega⟩

/-- What shifting the boards `l` does (R182): the source after 8 draws a board, the cells, the bytes stored. -/
theorem State.ioBoards_spec (l : List Nat) (s : State) :
    (l.foldl State.ioShiftBoard s).ioPins = (s.ioPins.drawN .io (8 * l.length)).2 ∧
    (l.foldl State.ioShiftBoard s).trace = s.trace ++ List.zipWith (fun o d => Event.cell .io (some o) (some d))
      (l.flatMap fun b => msbBits (s.byte .ioOut b ^^^ invMask s.ioInvOut)) (s.ioPins.drawN .io (8 * l.length)).1 ∧
    (l.foldl State.ioShiftBoard s).ioIn = s.ioIn.writeAll (ioWrites s.ioInvIn l (s.ioPins.drawN .io (8 * l.length)).1) := by
  induction l generalizing s with
  | nil => simp [PinSource.drawN, ioWrites, Memory.writeAll]
  | cons b l ih =>
    have hb : ∀ a, (s.ioShiftBoard b).byte .ioOut a = s.byte .ioOut a := by
      intro a; simp [State.byte, State.space]
    have hi : (s.ioShiftBoard b).ioInvOut = s.ioInvOut := by simp [State.ioInvOut]
    have hj : (s.ioShiftBoard b).ioInvIn = s.ioInvIn := by simp [State.ioInvIn]
    have hp : (s.ioShiftBoard b).ioPins = (s.ioPins.drawN .io 8).2 := rfl
    have ht : (s.ioShiftBoard b).trace = s.trace ++ List.zipWith (fun o d => Event.cell .io (some o) (some d))
      (msbBits (s.byte .ioOut b ^^^ invMask s.ioInvOut)) (s.ioPins.drawN .io 8).1 := rfl
    have hm : (s.ioShiftBoard b).ioIn = s.ioIn.write b (byteOfMsb (s.ioPins.drawN .io 8).1 ^^^ invMask s.ioInvIn) := rfl
    obtain ⟨h1, h2, h3⟩ := ih (s.ioShiftBoard b)
    have hlen : 8 * (b :: l).length = 8 + 8 * l.length := by simp [Nat.mul_add, Nat.add_comm]
    rw [List.foldl_cons, hlen, PinSource.drawN_add]
    refine ⟨by rw [h1, hp], ?_, ?_⟩
    · rw [h2, ht, hi, hp, List.flatMap_cons, List.zipWith_append (by simp), List.append_assoc]
      simp [hb]
    · rw [h3, hm, hj, hp]
      simp [ioWrites, Memory.writeAll]

theorem State.ioTransact_source (s : State) : s.ioTransact.ioPins = (s.ioPins.drawN .io (8 * s.cfg.nbIo)).2 := by
  have h := (State.ioBoards_spec (List.range s.cfg.nbIo).reverse (s.emit [.latchAssert .ioLatIn])).1
  simpa [State.ioTransact] using h

theorem State.ioTransact_trace (s : State) : s.ioTransact.trace = s.trace ++ ioTransactEvents s := by
  have h := (State.ioBoards_spec (List.range s.cfg.nbIo).reverse (s.emit [.latchAssert .ioLatIn])).2.1
  have hz : List.zipWith (fun o d => Event.cell .io (some o) (some d))
      ((List.range s.cfg.nbIo).reverse.flatMap fun b => msbBits (s.byte .ioOut b ^^^ invMask s.ioInvOut))
      (s.ioPins.drawN .io (8 * s.cfg.nbIo)).1 =
      (List.range (8 * s.cfg.nbIo)).map (fun k => Event.cell .io
        (some ((s.byte .ioOut (s.cfg.nbIo - 1 - k / 8)).getLsbD (7 - k % 8) ^^ s.ioInvOut))
        (some ((ioDraws s).getD k false))) := by
    apply List.ext_getElem?
    intro k
    rw [List.getElem?_zipWith, List.getElem?_map]
    by_cases hk : k < 8 * s.cfg.nbIo
    · have hb : k / 8 < s.cfg.nbIo := by omega
      have h1 : ((List.range s.cfg.nbIo).reverse.flatMap fun b => msbBits (s.byte .ioOut b ^^^ invMask s.ioInvOut))[k]? =
          some ((s.byte .ioOut (s.cfg.nbIo - 1 - k / 8)).getLsbD (7 - k % 8) ^^ s.ioInvOut) := by
        rw [getElem?_flatMap_const _ 8 (by omega) (fun _ => rfl), List.getElem?_reverse (by simpa using hb)]
        simp only [List.length_range]
        rw [List.getElem?_range (by omega)]
        simp only [Option.bind_some]
        rw [msbBits_getElem? _ _ (by omega), getLsbD_xor_invMask _ _ _ (by omega)]
      have h2 : (s.ioPins.drawN .io (8 * s.cfg.nbIo)).1[k]? = some ((ioDraws s).getD k false) := by
        have : k < (s.ioPins.drawN .io (8 * s.cfg.nbIo)).1.length := by simpa using hk
        rw [ioDraws, List.getD, List.getElem?_eq_getElem this, Option.getD_some]
      rw [h1, h2, List.getElem?_range hk]
      rfl
    · have h1 : (s.ioPins.drawN .io (8 * s.cfg.nbIo)).1[k]? = none := by simp; omega
      have h2 : (List.range (8 * s.cfg.nbIo))[k]? = none := by simp; omega
      rw [h1, h2]
      cases (List.flatMap (fun b => msbBits (s.byte Space.ioOut b ^^^ invMask s.ioInvOut)) (List.range s.cfg.nbIo).reverse)[k]? <;> rfl
  have he : (s.emit [.latchAssert .ioLatIn]).ioInvOut = s.ioInvOut := rfl
  simp only [List.length_reverse, List.length_range, State.emit_byte, he, State.emit_ioPins, State.emit_trace, hz] at h
  simp only [State.ioTransact, State.emit_trace, h, List.append_assoc, ioTransactEvents]

/-- The bits an IoTransact stores (R182): board NB_IO−1 receives the first eight draws. Needs the board's byte to exist. -/
theorem State.ioTransact_ioIn (s : State) (hm : s.ioIn.addrs = List.range s.cfg.nbIo) (b i : Nat)
    (hb : b < s.cfg.nbIo) (hi : i < 8) : (s.ioTransact.byte .ioIn b).getLsbD i =
      ((ioDraws s).getD (8 * (s.cfg.nbIo - 1 - b) + (7 - i)) false ^^ s.ioInvIn) := by
  have h := (State.ioBoards_spec (List.range s.cfg.nbIo).reverse (s.emit [.latchAssert .ioLatIn])).2.2
  have he : (s.emit [.latchAssert .ioLatIn]).ioInvIn = s.ioInvIn := rfl
  simp only [List.length_reverse, List.length_range, State.emit_ioPins, State.emit_ioIn, he] at h
  have hs : s.ioTransact.ioIn = s.ioIn.writeAll (ioWrites s.ioInvIn (List.range s.cfg.nbIo).reverse (ioDraws s)) := by
    simp only [State.ioTransact, State.emit_ioIn, h, ioDraws]
  have hnd : (List.range s.cfg.nbIo).reverse.Nodup := List.nodup_reverse.mpr List.nodup_range
  have hidx : (List.range s.cfg.nbIo).reverse[s.cfg.nbIo - 1 - b]? = some b := by
    rw [List.getElem?_reverse (by simp; omega)]
    simp only [List.length_range]
    rw [List.getElem?_range (by omega)]
    congr 1; omega
  have hmem : (b, byteOfMsb (((ioDraws s).drop (8 * (s.cfg.nbIo - 1 - b))).take 8) ^^^ invMask s.ioInvIn) ∈
      ioWrites s.ioInvIn (List.range s.cfg.nbIo).reverse (ioDraws s) :=
    (mem_ioWrites _ _ _ _).mpr ⟨s.cfg.nbIo - 1 - b, hidx, rfl⟩
  have huniq : ∀ p ∈ ioWrites s.ioInvIn (List.range s.cfg.nbIo).reverse (ioDraws s), p.1 = b →
      p.2 = byteOfMsb (((ioDraws s).drop (8 * (s.cfg.nbIo - 1 - b))).take 8) ^^^ invMask s.ioInvIn := by
    intro p hp hpb
    obtain ⟨j, h1, h2⟩ := (mem_ioWrites _ _ _ _).mp hp
    have hj : j = s.cfg.nbIo - 1 - b := by
      exact (List.getElem?_inj (List.getElem?_eq_some_iff.mp h1).1 hnd).mp (by rw [h1, hidx, hpb])
    rw [h2, hj]
  have hread : s.ioTransact.ioIn.read? b =
      some (byteOfMsb (((ioDraws s).drop (8 * (s.cfg.nbIo - 1 - b))).take 8) ^^^ invMask s.ioInvIn) := by
    have hsome : (s.ioIn.read? b).isSome = true := (Memory.read?_isSome_iff _ _).mpr (by rw [hm]; simpa using hb)
    obtain ⟨v, hv⟩ := Option.isSome_iff_exists.mp hsome
    rw [hs, Memory.read?_writeAll, hv, Option.map_some, lastWrite_of_mem v hmem huniq]
  have hl : (((ioDraws s).drop (8 * (s.cfg.nbIo - 1 - b))).take 8).length = 8 := by
    simp [ioDraws]; omega
  simp only [State.byte, State.space, hread, Option.getD_some]
  rw [getLsbD_xor_invMask _ _ _ hi, getLsbD_byteOfMsb _ hl i hi]
  simp [List.getD, List.getElem?_drop, show 7 - i < 8 by omega]

/-- All an IoTransact does (R182), with the field lemmas of `Laws/Channel.lean` as its frame. -/
theorem State.ioTransact_spec (s : State) (hm : s.ioIn.addrs = List.range s.cfg.nbIo) : IoTransacted s s.ioTransact :=
  ⟨s.ioTransact_grew.wired s.ioTransact_trace, s.ioTransact_ioIn hm, s.ioTransact_source⟩

/-! ### InTransact -/

/-- The writes of the boards `l` of an InTransact whose draws are `ds`. -/
def inWrites : List Nat → List Bool → List (Nat × Byte)
  | [], _ => []
  | b :: l, ds => (b, byteOfMsb (ds.take 8)) :: inWrites l (ds.drop 8)

theorem mem_inWrites (l : List Nat) (ds : List Bool) (p : Nat × Byte) :
    p ∈ inWrites l ds ↔ ∃ j, l[j]? = some p.1 ∧ p.2 = byteOfMsb ((ds.drop (8 * j)).take 8) := by
  induction l generalizing ds with
  | nil => simp [inWrites]
  | cons b l ih =>
    simp only [inWrites, List.mem_cons, ih]
    constructor
    · rintro (rfl | ⟨j, h1, h2⟩)
      · exact ⟨0, by simp⟩
      · exact ⟨j + 1, by simpa using h1, by rw [h2, List.drop_drop]; congr 3; omega⟩
    · rintro ⟨j, h1, h2⟩
      cases j with
      | zero => left; exact Prod.ext (by simpa using h1.symm) (by simpa using h2)
      | succ j => exact Or.inr ⟨j, by simpa using h1, by rw [h2, List.drop_drop]; congr 3; omega⟩

/-- What shifting the boards `l` does (R200): the source after 8 draws a board, the cells, the bytes stored. -/
theorem State.inBoards_spec (l : List Nat) (s : State) :
    (l.foldl State.inShiftBoard s).inPins = (s.inPins.drawN .inp (8 * l.length)).2 ∧
    (l.foldl State.inShiftBoard s).trace = s.trace ++
      (s.inPins.drawN .inp (8 * l.length)).1.map (fun d => Event.cell .inp none (some d)) ∧
    (l.foldl State.inShiftBoard s).inBuf = s.inBuf.writeAll (inWrites l (s.inPins.drawN .inp (8 * l.length)).1) := by
  induction l generalizing s with
  | nil => simp [PinSource.drawN, inWrites, Memory.writeAll]
  | cons b l ih =>
    have hp : (s.inShiftBoard b).inPins = (s.inPins.drawN .inp 8).2 := rfl
    have ht : (s.inShiftBoard b).trace = s.trace ++
      (s.inPins.drawN .inp 8).1.map (fun d => Event.cell .inp none (some d)) := rfl
    have hm : (s.inShiftBoard b).inBuf = s.inBuf.write b (byteOfMsb (s.inPins.drawN .inp 8).1) := rfl
    obtain ⟨h1, h2, h3⟩ := ih (s.inShiftBoard b)
    have hlen : 8 * (b :: l).length = 8 + 8 * l.length := by simp [Nat.mul_add, Nat.add_comm]
    rw [List.foldl_cons, hlen, PinSource.drawN_add]
    refine ⟨by rw [h1, hp], ?_, ?_⟩
    · rw [h2, ht, hp, List.map_append, List.append_assoc]
    · rw [h3, hm, hp]
      simp [inWrites, Memory.writeAll]

theorem State.inTransact_source (s : State) : s.inTransact.inPins = (s.inPins.drawN .inp (8 * s.cfg.nbIn)).2 := by
  have h := (State.inBoards_spec (List.range s.cfg.nbIn) (s.emit [.latchAssert .inLat])).1
  simpa [State.inTransact] using h

theorem State.inTransact_trace (s : State) : s.inTransact.trace = s.trace ++ inTransactEvents s := by
  have h := (State.inBoards_spec (List.range s.cfg.nbIn) (s.emit [.latchAssert .inLat])).2.1
  have hl : (inDraws s).length = 8 * s.cfg.nbIn := by simp [inDraws]
  rw [inTransactEvents, ← hl, map_range_getD (inDraws s) false (fun d => Event.cell .inp none (some d))]
  simp only [List.length_range, State.emit_inPins, State.emit_trace] at h
  simp only [State.inTransact, State.emit_trace, h, List.append_assoc, inDraws]

/-- The bits an InTransact stores (R200): board 0 receives the first eight draws. Needs the board's byte to exist. -/
theorem State.inTransact_inBuf (s : State) (hm : s.inBuf.addrs = List.range s.cfg.nbIn) (b i : Nat)
    (hb : b < s.cfg.nbIn) (hi : i < 8) : (s.inTransact.byte .inBuf b).getLsbD i =
      (inDraws s).getD (8 * b + (7 - i)) false := by
  have h := (State.inBoards_spec (List.range s.cfg.nbIn) (s.emit [.latchAssert .inLat])).2.2
  simp only [List.length_range, State.emit_inPins, State.emit_inBuf] at h
  have hs : s.inTransact.inBuf = s.inBuf.writeAll (inWrites (List.range s.cfg.nbIn) (inDraws s)) := by
    simp only [State.inTransact, State.emit_inBuf, h, inDraws]
  have hmem : (b, byteOfMsb (((inDraws s).drop (8 * b)).take 8)) ∈ inWrites (List.range s.cfg.nbIn) (inDraws s) :=
    (mem_inWrites _ _ _).mpr ⟨b, List.getElem?_range hb, rfl⟩
  have huniq : ∀ p ∈ inWrites (List.range s.cfg.nbIn) (inDraws s), p.1 = b →
      p.2 = byteOfMsb (((inDraws s).drop (8 * b)).take 8) := by
    intro p hp hpb
    obtain ⟨j, h1, h2⟩ := (mem_inWrites _ _ _).mp hp
    have hj : j = b :=
      (List.getElem?_inj (List.getElem?_eq_some_iff.mp h1).1 List.nodup_range).mp
        (by rw [h1, List.getElem?_range hb, hpb])
    rw [h2, hj]
  have hread : s.inTransact.inBuf.read? b = some (byteOfMsb (((inDraws s).drop (8 * b)).take 8)) := by
    have hsome : (s.inBuf.read? b).isSome = true := (Memory.read?_isSome_iff _ _).mpr (by rw [hm]; simpa using hb)
    obtain ⟨v, hv⟩ := Option.isSome_iff_exists.mp hsome
    rw [hs, Memory.read?_writeAll, hv, Option.map_some, lastWrite_of_mem v hmem huniq]
  have hl : (((inDraws s).drop (8 * b)).take 8).length = 8 := by
    simp [inDraws]; omega
  simp only [State.byte, State.space, hread, Option.getD_some]
  rw [getLsbD_byteOfMsb _ hl i hi]
  simp [List.getD, List.getElem?_drop, show 7 - i < 8 by omega]

/-- All an InTransact does (R200), with the field lemmas of `Laws/Channel.lean` as its frame. -/
theorem State.inTransact_spec (s : State) (hm : s.inBuf.addrs = List.range s.cfg.nbIn) : InTransacted s s.inTransact :=
  ⟨s.inTransact_grew.wired s.inTransact_trace, s.inTransact_inBuf hm, s.inTransact_source⟩

/-! ### PixTransmit and DigTransmit -/

theorem flatMap_replicate_flatten {α β : Type} (n : Nat) (l : List α) (f : α → List β) :
    ((List.replicate n l).flatten).flatMap f = (List.range n).flatMap fun _ => l.flatMap f := by
  induction n with
  | zero => rfl
  | succ n ih =>
    rw [List.range_succ, List.flatMap_append, ← ih]
    simp [List.replicate_succ', List.flatMap_append]

/-- The events of a PixTransmit (R147), where CR0 holds its construction value. -/
theorem State.pixTransmit_trace (s : State) (hg : s.groupSize = s.cfg.groupSize) :
    s.pixTransmit.trace = s.trace ++ pixFrameEvents s := by
  simp only [State.pixTransmit, State.emit_trace, pixFrameEvents, State.pixFrame, hg]
  congr 3
  have : shiftPixByte s.pixTransport = outCells .pix := by funext v; rw [shiftPixByte_eq, outCells_eq]
  rw [this, List.flatMap_assoc]
  congr 1
  funext i
  rw [flatMap_replicate_flatten]
  rfl

/-- The events of a DigTransmit (R217). -/
theorem State.digTransmit_trace (s : State) : s.digTransmit.trace = s.trace ++ digFrameEvents s := by
  simp only [State.digTransmit, State.emit_trace, digFrameEvents, State.digFrame]
  congr 2
  rw [List.flatMap_map]
  have : (List.range s.cfg.ndig).reverse = (List.range s.cfg.ndig).map fun j => s.cfg.ndig - 1 - j := by
    apply List.ext_getElem
    · simp
    · intro i h1 h2; simp
  rw [this, List.flatMap_map]
  rfl

end Sys2Proof.Machine
end

