-- ==== Sys2Proof/Laws/Intact.lean ====
section
/-! SUPPORT. What keeps the invariant of a constructed machine, update by update, and the pins' idle levels after each
transaction (10_state.md R43, 60_exceptions.md R315). -/

namespace Sys2Proof.Machine

open Sys2Proof.Safety

/-! ### Pins -/

/-- The four clocks are low. -/
def Pins.clocksLow (p : Pins) : Prop := p.pixSck = false ∧ p.ioSck = false ∧ p.inSck = false ∧ p.digSck = false

/-- An event is a cell. -/
def Event.isCell : Event → Bool
  | .cell _ _ _ => true
  | _ => false

/-- With the clocks low, cells change nothing but the data-out levels (R71). -/
theorem Pins.foldl_cells (pol : LatchPols) (es : List Event) (hes : ∀ e ∈ es, e.isCell = true) (p : Pins)
    (hp : p.clocksLow) :
    ∃ a b c, es.foldl (Pins.drive pol) p = { p with pixSdo := a, ioSdo := b, digSdo := c } := by
  induction es generalizing p with
  | nil => exact ⟨p.pixSdo, p.ioSdo, p.digSdo, rfl⟩
  | cons e es ih =>
    have hstep : ∃ a b c, Pins.drive pol p e = { p with pixSdo := a, ioSdo := b, digSdo := c } := by
      obtain ⟨h1, h2, h3, h4⟩ := hp
      have he := hes e (by simp)
      cases e with
      | cell ch d i =>
        cases p
        simp only at h1 h2 h3 h4
        subst h1 h2 h3 h4
        cases ch <;> simp [Pins.drive, Pins.clockCell]
      | _ => simp [Event.isCell] at he
    obtain ⟨a, b, c, h⟩ := hstep
    obtain ⟨a', b', c', h'⟩ := ih (fun e he => hes e (by simp [he])) (Pins.drive pol p e) (by rw [h]; exact hp)
    exact ⟨a', b', c', by rw [List.foldl_cons, h', h]⟩

theorem Pins.clocksLow_of_isIdle {pol : LatchPols} {p : Pins} (h : p.isIdle pol = true) : p.clocksLow := by
  simp [Pins.isIdle] at h
  exact ⟨h.1.1.1.1.1.1.1.1, h.1.1.1.1.1.1.1.2, h.1.1.1.1.1.1.2, h.1.1.1.1.1.2⟩

theorem isCell_outCells (ch : Channel) (v : Byte) : ∀ e ∈ outCells ch v, e.isCell = true := by
  simp [outCells, Event.isCell]

/-- A frame leaves the pins idle (R147, R306). -/
theorem pixFrameEvents_idle (s : State) (p : Pins) (h : p.isIdle s.cfg.latchPol = true) :
    ((pixFrameEvents s).foldl (Pins.drive s.cfg.latchPol) p).isIdle s.cfg.latchPol = true := by
  have hc := Pins.clocksLow_of_isIdle h
  rw [pixFrameEvents, List.foldl_append, List.foldl_append]
  obtain ⟨a, b, c, hf⟩ := Pins.foldl_cells s.cfg.latchPol
    ((List.range s.cfg.npix).flatMap fun i => (List.range s.cfg.groupSize).flatMap fun _ =>
      ([0, 1, 2] : List Nat).flatMap fun j => outCells .pix (s.byte .pix (3 * i + j)))
    (by
      intro e he
      simp only [List.mem_flatMap] at he
      obtain ⟨i, _, r, _, j, _, he⟩ := he
      exact isCell_outCells _ _ e he)
    ([Event.irqHold true].foldl (Pins.drive s.cfg.latchPol) p) hc
  rw [hf]
  simp only [Pins.isIdle] at h ⊢
  simp [Pins.drive] at h ⊢
  simp [h]

/-- A digit transmit leaves the pins idle (R217). -/
theorem digFrameEvents_idle (s : State) (p : Pins) (h : p.isIdle s.cfg.latchPol = true) :
    ((digFrameEvents s).foldl (Pins.drive s.cfg.latchPol) p).isIdle s.cfg.latchPol = true := by
  have hc := Pins.clocksLow_of_isIdle h
  rw [digFrameEvents, List.foldl_append]
  obtain ⟨a, b, c, hf⟩ := Pins.foldl_cells s.cfg.latchPol
    ((List.range s.cfg.ndig).flatMap fun j => outCells .dig (s.byte .dig (s.cfg.ndig - 1 - j)))
    (by
      intro e he
      simp only [List.mem_flatMap] at he
      obtain ⟨j, _, he⟩ := he
      exact isCell_outCells _ _ e he) p hc
  rw [hf]
  simp only [Pins.isIdle] at h ⊢
  simp [Pins.drive, Pins.setLatch] at h ⊢
  simp [h]

/-- An IoTransact leaves the pins idle (R182). -/
theorem ioTransactEvents_idle (s : State) (p : Pins) (h : p.isIdle s.cfg.latchPol = true) :
    ((ioTransactEvents s).foldl (Pins.drive s.cfg.latchPol) p).isIdle s.cfg.latchPol = true := by
  have hc := Pins.clocksLow_of_isIdle h
  rw [ioTransactEvents, List.foldl_append, List.foldl_append]
  obtain ⟨a, b, c, hf⟩ := Pins.foldl_cells s.cfg.latchPol
    ((List.range (8 * s.cfg.nbIo)).map (fun k => Event.cell .io
      (some ((s.byte .ioOut (s.cfg.nbIo - 1 - k / 8)).getLsbD (7 - k % 8) ^^ s.ioInvOut))
      (some ((ioDraws s).getD k false))))
    (by simp [Event.isCell]) ([Event.latchAssert .ioLatIn].foldl (Pins.drive s.cfg.latchPol) p) hc
  rw [hf]
  simp only [Pins.isIdle] at h ⊢
  simp [Pins.drive, Pins.setLatch] at h ⊢
  simp [h]

/-- An InTransact leaves the pins idle (R200). -/
theorem inTransactEvents_idle (s : State) (p : Pins) (h : p.isIdle s.cfg.latchPol = true) :
    ((inTransactEvents s).foldl (Pins.drive s.cfg.latchPol) p).isIdle s.cfg.latchPol = true := by
  have hc := Pins.clocksLow_of_isIdle h
  rw [inTransactEvents, List.foldl_append, List.foldl_append]
  obtain ⟨a, b, c, hf⟩ := Pins.foldl_cells s.cfg.latchPol
    ((List.range (8 * s.cfg.nbIn)).map (fun k => Event.cell .inp none (some ((inDraws s).getD k false))))
    (by simp [Event.isCell]) ([Event.latchAssert .inLat].foldl (Pins.drive s.cfg.latchPol) p) hc
  rw [hf]
  simp only [Pins.isIdle] at h ⊢
  simp [Pins.drive, Pins.setLatch] at h ⊢
  simp [h]

/-! ### What the configuration fixes -/

/-- CR0's GROUP_SIZE is the configuration's (R30). -/
theorem groupSize_of_intact {s : State} (h : Intact s) : s.groupSize = s.cfg.groupSize := by
  have hl := h.legal
  simp only [Config.legal, Config.sizesLegal, Bool.and_eq_true, decide_eq_true_eq] at hl
  rw [State.groupSize, h.pixCfg]
  have : (pixCfgReset s.cfg).extractLsb' 16 16 = BitVec.ofNat 16 s.cfg.groupSize := by
    apply BitVec.eq_of_getLsbD_eq
    intro i hi
    have h1 : ¬ 16 + i < 1 := by omega
    have h2 : ¬ 16 + i - 1 < 1 := by omega
    have h3 : ¬ 16 + i - 1 - 1 < 14 := by omega
    simp only [pixCfgReset, BitVec.getLsbD_extractLsb', BitVec.getLsbD_append, hi, decide_true, Bool.true_and, h1, h2,
      h3, if_false]
    congr 1; omega
  rw [this, BitVec.toNat_ofNat]
  omega

theorem pixAuto_of_intact {s : State} (h : Intact s) : s.pixAuto = s.cfg.pixAuto := by
  rw [State.pixAuto, h.pixCfg, pixCfgReset, BitVec.getLsbD_append]
  cases s.cfg.pixAuto <;> rfl

theorem ioAuto_of_intact {s : State} (h : Intact s) : s.ioAuto = s.cfg.ioAuto := by
  rw [State.ioAuto, h.ioCfg, ioCfgReset, BitVec.getLsbD_append]
  cases s.cfg.ioAuto <;> rfl

theorem ioInvIn_of_intact {s : State} (h : Intact s) : s.ioInvIn = s.cfg.ioInvIn := by
  rw [State.ioInvIn, h.ioCfg, ioCfgReset, BitVec.getLsbD_append, BitVec.getLsbD_append]
  cases s.cfg.ioInvIn <;> rfl

theorem ioInvOut_of_intact {s : State} (h : Intact s) : s.ioInvOut = s.cfg.ioInvOut := by
  rw [State.ioInvOut, h.ioCfg, ioCfgReset, BitVec.getLsbD_append, BitVec.getLsbD_append, BitVec.getLsbD_append]
  cases s.cfg.ioInvOut <;> rfl

theorem inAuto_of_intact {s : State} (h : Intact s) : s.inAuto = s.cfg.inAuto := by
  rw [State.inAuto, h.inCfg, inCfgReset, BitVec.getLsbD_append]
  cases s.cfg.inAuto <;> rfl

theorem digAuto_of_intact {s : State} (h : Intact s) : s.digAuto = s.cfg.digAuto := by
  rw [State.digAuto, h.digCfg, digCfgReset, BitVec.getLsbD_append]
  cases s.cfg.digAuto <;> rfl

/-- A byte of a buffer that lists 0 .. n−1 exists below n. -/
theorem Memory.exists_of_range {m : Memory} {n a : Nat} (h : m.addrs = List.range n) (ha : a < n) :
    ∃ v, m.read? a = some v :=
  Option.isSome_iff_exists.mp ((Memory.read?_isSome_iff m a).mpr (by rw [h]; simpa using ha))

end Sys2Proof.Machine
end

