-- ==== Sys2Proof/Laws/Groups.lean ====
section
/-! SUPPORT. What the digit groups' operations leave in the digit buffer, byte by byte (44_digits.md R211, R219-R228). -/

namespace Sys2Proof.Machine

open Sys2Proof.Safety

/-! ### The addresses stay -/

@[simp] theorem addrs_groupWrite (g : GroupCfg) (m : Memory) (i : Nat) (v : Byte) :
    (groupWrite g m i v).addrs = m.addrs := by
  unfold groupWrite; split <;> simp

@[simp] theorem addrs_groupWriteAll (g : GroupCfg) (m : Memory) (l : List (Nat × Byte)) :
    (groupWriteAll g m l).addrs = m.addrs := by
  induction l generalizing m with
  | nil => rfl
  | cons p l ih => exact (ih _).trans (addrs_groupWrite _ _ _ _)

@[simp] theorem addrs_groupFill (g : GroupCfg) (m : Memory) (v : Byte) : (groupFill g m v).addrs = m.addrs :=
  addrs_groupWriteAll _ _ _

@[simp] theorem addrs_backFill (c : Config) (g : GroupCfg) (m : Memory) (k p : Nat) :
    (backFill c g m k p).addrs = m.addrs := by
  unfold backFill; split <;> (try split) <;> simp

@[simp] theorem addrs_showNumberDig (c : Config) (g : GroupCfg) (m : Memory) (v d : Nat) :
    (showNumberDig c g m v d).addrs = m.addrs := by
  unfold showNumberDig; dsimp only; split <;> simp [setPoint]

@[simp] theorem addrs_showSignedDig (c : Config) (g : GroupCfg) (m : Memory) (v : Int) (d : Nat) :
    (showSignedDig c g m v d).addrs = m.addrs := by
  unfold showSignedDig; split <;> simp

@[simp] theorem addrs_place (g : GroupCfg) (m : Memory) (l : List Byte) : (place g m l).addrs = m.addrs := by
  unfold place; split <;> simp

@[simp] theorem addrs_showSymbolDig (c : Config) (g : GroupCfg) (m : Memory) (k : Nat) :
    (showSymbolDig c g m k).addrs = m.addrs := by
  unfold showSymbolDig; split <;> simp

/-! ### Group writes -/

/-- A list of group writes as writes of the buffer. -/
def groupCells (g : GroupCfg) (l : List (Nat × Byte)) : List (Nat × Byte) :=
  (l.filter fun p => decide (p.1 < g.size)).map fun p => (gpos g p.1, p.2)

theorem groupWriteAll_eq (g : GroupCfg) (m : Memory) (l : List (Nat × Byte)) :
    groupWriteAll g m l = m.writeAll (groupCells g l) := by
  induction l generalizing m with
  | nil => rfl
  | cons p l ih =>
    have h : groupWriteAll g m (p :: l) = groupWriteAll g (groupWrite g m p.1 p.2) l := rfl
    rw [h, ih]
    by_cases hp : p.1 < g.size
    · simp [groupWrite, hp, groupCells, Memory.writeAll]
    · simp [groupWrite, hp, groupCells]

/-- Reading after group writes. -/
theorem read?_groupWriteAll (g : GroupCfg) (m : Memory) (l : List (Nat × Byte)) (a : Nat) :
    (groupWriteAll g m l).read? a = (m.read? a).map (lastWrite (groupCells g l) a) := by
  rw [groupWriteAll_eq, Memory.read?_writeAll]

/-- Group writes leave every byte outside the group (R219). -/
theorem read?_groupWriteAll_outside (g : GroupCfg) (m : Memory) (l : List (Nat × Byte)) (a : Nat) (h : ¬ inGroup g a) :
    (groupWriteAll g m l).read? a = m.read? a := by
  rw [read?_groupWriteAll]
  have : lastWrite (groupCells g l) a = id := by
    funext v
    refine lastWrite_of_not_mem v fun p hp => ?_
    simp only [groupCells, List.mem_map, List.mem_filter, decide_eq_true_eq] at hp
    obtain ⟨q, ⟨_, hq⟩, rfl⟩ := hp
    intro he
    exact h ⟨by simp only [gpos] at he; omega, by simp only [gpos] at he; omega⟩
  rw [this, Option.map_id, id]

/-- Reading a group position that a write names, each such write giving the one value. -/
theorem read?_groupWriteAll_at (g : GroupCfg) (m : Memory) (l : List (Nat × Byte)) (i : Nat) (x : Byte)
    (hi : i < g.size) (hx : (i, x) ∈ l) (hu : ∀ p ∈ l, p.1 = i → p.2 = x) :
    (groupWriteAll g m l).read? (gpos g i) = (m.read? (gpos g i)).map fun _ => x := by
  rw [read?_groupWriteAll]
  have : lastWrite (groupCells g l) (gpos g i) = fun _ => x := by
    funext v
    refine lastWrite_of_mem v ?_ ?_
    · simp only [groupCells, List.mem_map, List.mem_filter, decide_eq_true_eq]
      exact ⟨(i, x), ⟨hx, hi⟩, rfl⟩
    · intro p hp hpi
      simp only [groupCells, List.mem_map, List.mem_filter, decide_eq_true_eq] at hp
      obtain ⟨q, ⟨hq, _⟩, rfl⟩ := hp
      exact hu q hq (by simp only [gpos] at hpi; omega)
  rw [this]

/-- Reading a group position that no write names. -/
theorem read?_groupWriteAll_ne (g : GroupCfg) (m : Memory) (l : List (Nat × Byte)) (i : Nat)
    (h : ∀ p ∈ l, p.1 ≠ i) : (groupWriteAll g m l).read? (gpos g i) = m.read? (gpos g i) := by
  rw [read?_groupWriteAll]
  have : lastWrite (groupCells g l) (gpos g i) = id := by
    funext v
    refine lastWrite_of_not_mem v fun p hp => ?_
    simp only [groupCells, List.mem_map, List.mem_filter, decide_eq_true_eq] at hp
    obtain ⟨q, ⟨hq, _⟩, rfl⟩ := hp
    intro he
    exact h q hq (by simp only [gpos] at he; omega)
  rw [this, Option.map_id, id]

/-- Reading a group position after writes at positions s .. s+n−1. -/
theorem read?_groupWriteAll_range (g : GroupCfg) (m : Memory) (s n : Nat) (f : Nat → Byte) (i : Nat) (hi : i < g.size) :
    (groupWriteAll g m ((List.range' s n).map fun i => (i, f i))).read? (gpos g i) =
      if s ≤ i ∧ i < s + n then (m.read? (gpos g i)).map fun _ => f i else m.read? (gpos g i) := by
  split
  · rename_i h
    refine read?_groupWriteAll_at g m _ i (f i) hi ?_ ?_
    · simp only [List.mem_map, List.mem_range'_1]; exact ⟨i, h, rfl⟩
    · intro p hp hpi
      simp only [List.mem_map] at hp
      obtain ⟨j, _, rfl⟩ := hp
      simp only at hpi
      rw [hpi]
  · rename_i h
    refine read?_groupWriteAll_ne g m _ i ?_
    intro p hp hpi
    simp only [List.mem_map, List.mem_range'_1] at hp
    obtain ⟨j, hj, rfl⟩ := hp
    simp only at hpi
    exact h (hpi ▸ hj)

/-- A group fill puts its byte at every position (R227, R228). -/
theorem read?_groupFill (g : GroupCfg) (m : Memory) (v : Byte) (i : Nat) (hi : i < g.size) :
    (groupFill g m v).read? (gpos g i) = (m.read? (gpos g i)).map fun _ => v := by
  rw [groupFill, List.range_eq_range', read?_groupWriteAll_range g m 0 g.size (fun _ => v) i hi]
  simp [hi]

theorem read?_groupFill_outside (g : GroupCfg) (m : Memory) (v : Byte) (a : Nat) (h : ¬ inGroup g a) :
    (groupFill g m v).read? a = m.read? a := read?_groupWriteAll_outside g m _ a h

/-! ### Numbers (R221) -/

/-- The digits ShowNumberCore writes: position i holds digit i of v, for the positions that show one. -/
theorem showDigits_getElem? (S v i : Nat) :
    (showDigits S v)[i]? = if i < S ∧ isDigitPos v i = true then some (v / 10 ^ i % 10) else none := by
  induction S generalizing v i with
  | zero => simp [showDigits]
  | succ S ih =>
    rw [showDigits]
    cases i with
    | zero => simp [isDigitPos]
    | succ i =>
      rw [List.getElem?_cons_succ]
      by_cases hv : v / 10 = 0
      · have h10 : ¬ 10 ^ (i + 1) ≤ v := by
          have h1 : (10 : Nat) ^ 1 ≤ 10 ^ (i + 1) := Nat.pow_le_pow_right (by omega) (by omega)
          omega
        simp [hv, isDigitPos, h10]
      · have hpow : (10 : Nat) ^ (i + 1) ≤ v ↔ 10 ^ i ≤ v / 10 := by
          rw [Nat.le_div_iff_mul_le (by omega), Nat.pow_succ]
        have hdiv : v / 10 ^ (i + 1) = v / 10 / 10 ^ i := by
          rw [Nat.pow_succ, Nat.mul_comm, Nat.div_div_eq_div_mul]
        have hpos : isDigitPos v (i + 1) = isDigitPos (v / 10) i := by
          simp only [isDigitPos, hpow, Nat.add_eq_zero_iff, Nat.one_ne_zero, and_false, false_or]
          cases i with
          | zero => simp; omega
          | succ i => simp
        rw [if_neg hv, ih, hdiv, hpos]
        simp

/-- A position shows a digit exactly below the digit count. -/
theorem lt_length_showDigits (S v i : Nat) : i < (showDigits S v).length ↔ i < S ∧ isDigitPos v i = true := by
  have h := showDigits_getElem? S v i
  split at h
  · rename_i hc
    exact ⟨fun _ => hc, fun _ => (List.getElem?_eq_some_iff.mp h).1⟩
  · rename_i hc
    exact ⟨fun hl => absurd hl (by have := List.getElem?_eq_none_iff.mp h; omega), fun hc' => absurd hc' hc⟩

theorem countP_lt (S L : Nat) (h : L ≤ S) : (List.range S).countP (fun i => decide (i < L)) = L := by
  induction S with
  | zero => simp; omega
  | succ S ih =>
    rw [List.range_succ, List.countP_append]
    by_cases hl : L ≤ S
    · have : ¬ S < L := by omega
      simp [ih hl, this]
    · have hL : L = S + 1 := by omega
      subst hL
      have : (List.range S).countP (fun i => decide (i < S + 1)) = S := by
        have hc : (List.range S).countP (fun i => decide (i < S + 1)) = (List.range S).length := by
          rw [List.countP_eq_length]
          intro i hi
          have := List.mem_range.mp hi
          simp; omega
        rw [hc, List.length_range]
      rw [this]; simp

/-- How many digits are shown. -/
theorem length_showDigits (S v : Nat) : (showDigits S v).length = digitCount S v := by
  have hle : (showDigits S v).length ≤ S := by
    by_contra hc
    exact absurd ((lt_length_showDigits S v S).mp (by omega)).1 (by omega)
  rw [digitCount, ← countP_lt S _ hle]
  refine List.countP_congr fun i hi => ?_
  simp [lt_length_showDigits, List.mem_range.mp hi]

/-- The segment bits and the point of an encoded digit (R211). -/
theorem getLsbD_enc (c : Config) (d : Nat) (dp : Bool) (j : Nat) (hj : j < 8) :
    (enc c d dp).getLsbD j = encBit c d dp j := by
  have hm : ∀ b : Byte, ((b &&& 0xFE) ||| (BitVec.ofBool dp).setWidth 8).getLsbD j = if j = 0 then dp else b.getLsbD j := by
    intro b
    have : j = 0 ∨ j = 1 ∨ j = 2 ∨ j = 3 ∨ j = 4 ∨ j = 5 ∨ j = 6 ∨ j = 7 := by omega
    rcases this with rfl | rfl | rfl | rfl | rfl | rfl | rfl | rfl <;> cases dp <;> simp
  rw [enc, hm, encBit]
  split
  · rfl
  · split
    · rfl
    · simp [blank]

/-- The byte position `i` of a group shows before its decimal point is set (R221, R224). -/
def numberBase (c : Config) (S v dpPos i : Nat) : Byte :=
  if isDigitPos v i then enc c (v / 10 ^ i % 10) false
  else if hasPoint S dpPos && backFilled c.dpBackfill (dpPos - 1) i then enc c 0 false
  else blank

/-- After the digits and the blanks. -/
theorem read?_digits_blanks (c : Config) (g : GroupCfg) (m : Memory) (v i : Nat) (hi : i < g.size) :
    (groupWriteAll g (groupWriteAll g m ((showDigits g.size v).zipIdx.map fun d => (d.2, enc c d.1 false)))
      ((List.range' (showDigits g.size v).length (g.size - (showDigits g.size v).length)).map fun i => (i, blank))).read?
        (gpos g i) =
      (m.read? (gpos g i)).map fun _ => if isDigitPos v i then enc c (v / 10 ^ i % 10) false else blank := by
  rw [read?_groupWriteAll_range g _ _ _ (fun _ => blank) i hi]
  have hlen := lt_length_showDigits g.size v i
  by_cases hd : isDigitPos v i = true
  · have hlt := hlen.mpr ⟨hi, hd⟩
    have hget : (showDigits g.size v)[i]? = some (v / 10 ^ i % 10) := by
      rw [showDigits_getElem?, if_pos ⟨hi, hd⟩]
    rw [if_neg (by omega)]
    rw [read?_groupWriteAll_at g m _ i (enc c (v / 10 ^ i % 10) false) hi]
    · simp [hd]
    · simp only [List.mem_map, Prod.mk.injEq]
      exact ⟨(v / 10 ^ i % 10, i), List.mem_zipIdx_iff_getElem?.mpr hget, rfl, rfl⟩
    · intro p hp hpi
      simp only [List.mem_map] at hp
      obtain ⟨q, hq, rfl⟩ := hp
      have hq := List.mem_zipIdx_iff_getElem?.mp hq
      simp only at hpi
      rw [hpi, hget] at hq
      simp only
      rw [← Option.some.inj hq]
  · have hge : ¬ i < (showDigits g.size v).length := fun h => hd (hlen.mp h).2
    rw [if_pos (by omega)]
    rw [read?_groupWriteAll_ne]
    · simp [hd]
    · intro p hp hpi
      simp only [List.mem_map] at hp
      obtain ⟨q, hq, rfl⟩ := hp
      have hq := List.mem_zipIdx_iff_getElem?.mp hq
      simp only at hpi
      rw [hpi] at hq
      exact hge (List.getElem?_eq_some_iff.mp hq).1

/-- A group position after ShowNumberCore (R221, R222, R224). -/
theorem read?_showNumberDig (c : Config) (g : GroupCfg) (m : Memory) (v dpPos i : Nat) (hi : i < g.size) :
    (showNumberDig c g m v dpPos).read? (gpos g i) = (m.read? (gpos g i)).map fun _ =>
      if hasPoint g.size dpPos && decide (i + 1 = dpPos) then numberBase c g.size v dpPos i ||| 0x01
      else numberBase c g.size v dpPos i := by
  have hlen := lt_length_showDigits g.size v i
  have hbase := read?_digits_blanks c g m v i hi
  unfold showNumberDig
  dsimp only
  generalize hm : groupWriteAll g (groupWriteAll g m ((showDigits g.size v).zipIdx.map fun d => (d.2, enc c d.1 false)))
      ((List.range' (showDigits g.size v).length (g.size - (showDigits g.size v).length)).map fun i => (i, blank)) = m1 at hbase ⊢
  by_cases hp : dpPos ≠ 0 ∧ dpPos ≤ g.size
  · have hpt : hasPoint g.size dpPos = true := by simp [hasPoint, hp]
    rw [if_pos hp, setPoint, Memory.read?_modify]
    have hfill : (backFill c g m1 (showDigits g.size v).length (dpPos - 1)).read? (gpos g i) =
        (m.read? (gpos g i)).map fun _ => numberBase c g.size v dpPos i := by
      unfold backFill numberBase
      rw [hpt]
      cases hb : c.dpBackfill with
      | dpDigitOnly =>
        simp only [backFilled, Bool.true_and, decide_eq_true_eq]
        split
        · rename_i hge
          by_cases hip : i = dpPos - 1
          · have hnd : isDigitPos v i = false := by
              cases hx : isDigitPos v i with
              | false => rfl
              | true => exact absurd (hlen.mpr ⟨hi, hx⟩) (by omega)
            subst hip
            rw [groupWrite, if_pos hi, Memory.read?_write, if_pos rfl, hbase]
            simp [hnd]; rfl
          · rw [groupWrite]
            have : ¬ gpos g (dpPos - 1) = gpos g i := by simp only [gpos]; omega
            split
            · rw [Memory.read?_write, if_neg this, hbase]
            · rw [hbase]
        · rename_i hlt
          rw [hbase]
          by_cases hip : i = dpPos - 1
          · have hd := (hlen.mp (by omega)).2
            simp [hd]
          · simp [hip]
      | countToDp =>
        simp only [backFilled, Bool.true_and, decide_eq_true_eq]
        rw [read?_groupWriteAll_range g m1 _ _ (fun _ => enc c 0 false) i hi, hbase]
        by_cases hd : isDigitPos v i = true
        · have := hlen.mpr ⟨hi, hd⟩
          rw [if_neg (by omega)]; simp [hd]
        · have : ¬ i < (showDigits g.size v).length := fun h => hd (hlen.mp h).2
          by_cases hip : i ≤ dpPos - 1
          · rw [if_pos (by omega)]; simp [hd, hip]; rfl
          · rw [if_neg (by omega)]; simp [hd, hip]
      | none => simp [backFilled, hbase]
    rw [hfill, hpt]
    by_cases he : i + 1 = dpPos
    · have : gpos g (dpPos - 1) = gpos g i := by simp only [gpos]; omega
      rw [if_pos this, Option.map_map]
      simp [he, Function.comp_def]
    · have : ¬ gpos g (dpPos - 1) = gpos g i := by simp only [gpos]; omega
      rw [if_neg this]
      simp [he]
  · have hpt : hasPoint g.size dpPos = false := by simp only [hasPoint, decide_eq_false_iff_not]; exact hp
    rw [if_neg hp, hbase]
    simp [hpt, numberBase]

/-- The same bit by bit. -/
theorem getLsbD_numberByte (c : Config) (S v dpPos i j : Nat) (hj : j < 8) :
    (if hasPoint S dpPos && decide (i + 1 = dpPos) then numberBase c S v dpPos i ||| 0x01
      else numberBase c S v dpPos i).getLsbD j = numberBit c S v dpPos i j := by
  have hbase : (numberBase c S v dpPos i).getLsbD j =
      if j = 0 then false else if isDigitPos v i then encBit c (v / 10 ^ i % 10) false j
        else hasPoint S dpPos && backFilled c.dpBackfill (dpPos - 1) i && encBit c 0 false j := by
    unfold numberBase
    split
    · rw [getLsbD_enc _ _ _ _ hj]; by_cases h0 : j = 0 <;> simp [h0, encBit]
    · split
      · rename_i h; rw [getLsbD_enc _ _ _ _ hj]; by_cases h0 : j = 0 <;> simp_all [encBit]
      · rename_i h; by_cases h0 : j = 0 <;> simp_all [blank]
  have h1 : (1#8).getLsbD j = decide (j = 0) := by
    have : j = 0 ∨ j = 1 ∨ j = 2 ∨ j = 3 ∨ j = 4 ∨ j = 5 ∨ j = 6 ∨ j = 7 := by omega
    rcases this with rfl | rfl | rfl | rfl | rfl | rfl | rfl | rfl <;> rfl
  unfold numberBit
  split
  · rename_i hc
    rw [BitVec.getLsbD_or, hbase]
    by_cases h0 : j = 0
    · simp_all
    · have : (1#8).getLsbD j = false := by rw [h1]; simp [h0]
      simp [h0, this]
  · rename_i hc
    rw [hbase]
    by_cases h0 : j = 0
    · simp_all
    · simp [h0]

/-- ShowNumberCore leaves every byte outside the group (R219). -/
theorem read?_showNumberDig_outside (c : Config) (g : GroupCfg) (m : Memory) (v dpPos a : Nat) (h : ¬ inGroup g a) :
    (showNumberDig c g m v dpPos).read? a = m.read? a := by
  unfold showNumberDig
  dsimp only
  split
  · rename_i hp
    have : ¬ gpos g (dpPos - 1) = a := by
      intro he; exact h ⟨by simp only [gpos] at he; omega, by simp only [gpos] at he; omega⟩
    rw [setPoint, Memory.read?_modify, if_neg this]
    have hb : ∀ m', (backFill c g m' (showDigits g.size v).length (dpPos - 1)).read? a = m'.read? a := by
      intro m'
      unfold backFill
      split
      · split
        · rw [groupWrite]; split
          · rw [Memory.read?_write, if_neg this]
          · rfl
        · rfl
      · rw [read?_groupWriteAll_outside _ _ _ _ h]
      · rfl
    rw [hb, read?_groupWriteAll_outside _ _ _ _ h, read?_groupWriteAll_outside _ _ _ _ h]
  · rw [read?_groupWriteAll_outside _ _ _ _ h, read?_groupWriteAll_outside _ _ _ _ h]

/-! ### Messages (R226, R227) -/

/-- A group position after the placement of a message on a blanked group. -/
theorem read?_place (g : GroupCfg) (m : Memory) (seq : List Byte) (i : Nat) (hi : i < g.size) :
    (place g (groupFill g m blank) seq).read? (gpos g i) =
      (m.read? (gpos g i)).map fun _ => messageByte seq g.size i := by
  unfold place messageByte
  by_cases hl : seq.length ≤ g.size
  · rw [if_pos hl]
    simp only [if_pos hl]
    by_cases hin : (g.size - seq.length) / 2 ≤ g.size - 1 - i ∧ g.size - 1 - i < (g.size - seq.length) / 2 + seq.length
    · simp only [if_pos hin]
      have hk : g.size - 1 - i - (g.size - seq.length) / 2 < seq.length := by omega
      have hget : seq[g.size - 1 - i - (g.size - seq.length) / 2]? =
          some (seq.getD (g.size - 1 - i - (g.size - seq.length) / 2) 0) := by
        simp [List.getD, List.getElem?_eq_getElem hk]
      rw [read?_groupWriteAll_at g _ _ i _ hi, read?_groupFill _ _ _ _ hi, Option.map_map]
      · rfl
      · simp only [List.mem_map, Prod.mk.injEq]
        exact ⟨(_, g.size - 1 - i - (g.size - seq.length) / 2), List.mem_zipIdx_iff_getElem?.mpr hget, by simp only; omega, rfl⟩
      · intro p hp hpi
        simp only [List.mem_map] at hp
        obtain ⟨q, hq, rfl⟩ := hp
        have hq := List.mem_zipIdx_iff_getElem?.mp hq
        have hq2 := (List.getElem?_eq_some_iff.mp hq).1
        simp only at hpi
        have : q.2 = g.size - 1 - i - (g.size - seq.length) / 2 := by omega
        rw [this, hget] at hq
        exact (Option.some.inj hq).symm
    · simp only [if_neg hin]
      rw [read?_groupWriteAll_ne, read?_groupFill _ _ _ _ hi]
      · rfl
      · intro p hp hpi
        simp only [List.mem_map] at hp
        obtain ⟨q, hq, rfl⟩ := hp
        have hq2 := (List.getElem?_eq_some_iff.mp (List.mem_zipIdx_iff_getElem?.mp hq)).1
        simp only at hpi
        exact hin (by omega)
  · rw [if_neg hl]
    simp only [if_neg hl]
    have hk : seq.length - g.size + (g.size - 1 - i) < seq.length := by omega
    have hget : (seq.drop (seq.length - g.size))[g.size - 1 - i]? =
        some (seq.getD (seq.length - g.size + (g.size - 1 - i)) 0) := by
      simp [List.getD, List.getElem?_eq_getElem hk, List.getElem?_drop]
    rw [read?_groupWriteAll_at g _ _ i _ hi, read?_groupFill _ _ _ _ hi, Option.map_map]
    · rfl
    · simp only [List.mem_map, Prod.mk.injEq]
      exact ⟨(_, g.size - 1 - i), List.mem_zipIdx_iff_getElem?.mpr hget, by simp only; omega, rfl⟩
    · intro p hp hpi
      simp only [List.mem_map] at hp
      obtain ⟨q, hq, rfl⟩ := hp
      have hq := List.mem_zipIdx_iff_getElem?.mp hq
      have hq2 := (List.getElem?_eq_some_iff.mp hq).1
      simp only [List.length_drop] at hq2
      simp only at hpi
      have : q.2 = g.size - 1 - i := by omega
      rw [this, hget] at hq
      exact (Option.some.inj hq).symm

/-- A group position after GRP_SHOW_SYMBOL of kind `k` ≤ 4 (R227). -/
theorem read?_showSymbolDig (c : Config) (g : GroupCfg) (m : Memory) (k i : Nat) (hk : k ≤ 4) (hi : i < g.size) :
    (showSymbolDig c g m k).read? (gpos g i) = (m.read? (gpos g i)).map fun _ => symbolByte c g.size k i := by
  have : k = 0 ∨ k = 1 ∨ k = 2 ∨ k = 3 ∨ k = 4 := by omega
  rcases this with rfl | rfl | rfl | rfl | rfl
  · exact read?_groupFill g m blank i hi
  · exact read?_place g m c.symError i hi
  · exact read?_place g m c.symFoul i hi
  · show (groupFill g (groupFill g m blank) c.segDash).read? (gpos g i) = _
    rw [read?_groupFill _ _ _ _ hi, read?_groupFill _ _ _ _ hi, Option.map_map]; rfl
  · show (groupFill g (groupFill g m blank) c.segTest).read? (gpos g i) = _
    rw [read?_groupFill _ _ _ _ hi, read?_groupFill _ _ _ _ hi, Option.map_map]; rfl

theorem read?_place_outside (g : GroupCfg) (m : Memory) (seq : List Byte) (a : Nat) (h : ¬ inGroup g a) :
    (place g m seq).read? a = m.read? a := by
  unfold place
  split <;> exact read?_groupWriteAll_outside _ _ _ _ h

theorem read?_showSymbolDig_outside (c : Config) (g : GroupCfg) (m : Memory) (k a : Nat) (h : ¬ inGroup g a) :
    (showSymbolDig c g m k).read? a = m.read? a := by
  unfold showSymbolDig
  split <;> simp only [read?_place_outside _ _ _ _ h, read?_groupFill_outside _ _ _ _ h]

end Sys2Proof.Machine
end

