-- ==== Sys2Proof/Laws/Effects.lean ====
section
/-! SUPPORT. What each shared operation does, said once: the auto transactions, the unit numbers, the lamp writes, the
select scan, and the byte writes of a buffer. -/

namespace Sys2Proof.Machine

open Sys2Proof.Safety

/-! ### Auto transactions -/

/-- PixAutoTail puts the frame on the wire in auto mode and nothing else (R140). -/
theorem State.pixAutoTail_wired (s : State) (hg : s.groupSize = s.cfg.groupSize) :
    Wired s s.pixAutoTail (pixAutoEvents s) := by
  unfold State.pixAutoTail pixAutoEvents
  split
  · exact (State.pixTransmit_grew s).wired (s.pixTransmit_trace hg)
  · simp [Wired]

/-- DigAutoTail puts the chain on the wire in auto mode and nothing else (R215). -/
theorem State.digAutoTail_wired (s : State) : Wired s s.digAutoTail (digAutoEvents s) := by
  unfold State.digAutoTail digAutoEvents
  split
  · exact (State.digTransmit_grew s).wired s.digTransmit_trace
  · simp [Wired]

/-- What an IoTransact does not change (R182). -/
theorem State.ioTransact_frame (s : State) : Frame ioTransactParts s s.ioTransact := by
  intro p hp
  cases p <;> simp [ioTransactParts, agree] at hp ⊢

/-- What an InTransact does not change (R200). -/
theorem State.inTransact_frame (s : State) : Frame [.inBuf, .wire, .inPins] s s.inTransact := by
  intro p hp
  cases p <;> simp [agree] at hp ⊢

theorem frame_refl (l : List Part) (s : State) : Frame l s s := by
  intro p _
  cases p <;> simp [agree]

theorem frame_trans {l l' : List Part} {s t u : State} (h : Frame l s t) (h' : Frame l' t u) : Frame (l ++ l') s u := by
  intro p hp
  have h1 := h p (fun hm => hp (by simp [hm]))
  have h2 := h' p (fun hm => hp (by simp [hm]))
  cases p <;> simp only [agree] at h1 h2 ⊢ <;> first | exact h2.trans h1 | exact ⟨h2.1.trans h1.1, h2.2.trans h1.2⟩

theorem frame_mono {l l' : List Part} {s t : State} (h : Frame l s t) (hl : ∀ p ∈ l, p ∈ l') : Frame l' s t :=
  fun p hp => h p fun hm => hp (hl p hm)

theorem State.completed_frame (s : State) (v : Word) : Frame [.port] s (s.completed v) := by
  intro p hp
  cases p <;> simp [agree] at hp ⊢

theorem State.completed_completes (s : State) (v : Word) : Completes (s.completed v) v := ⟨rfl, rfl⟩

/-- The transaction IO_CFG.AUTO asks for, with any RESULT after it. -/
theorem State.ioTransact_auto (s : State) (v : Word) (hm : s.ioIn.addrs = List.range s.cfg.nbIo) :
    IoAuto s ((if s.ioAuto then s.ioTransact else s).completed v) := by
  unfold IoAuto
  split
  · refine ⟨?_, ?_⟩
    · have h := s.ioTransact_spec hm
      exact ⟨h.wire, fun b i hb hi => by simpa using h.ioIn b i hb hi, h.source⟩
    · exact frame_mono (frame_trans s.ioTransact_frame (State.completed_frame _ v)) (by simp [ioTransactParts])
  · exact State.completed_frame _ v

theorem State.ioAutoPre_auto (s : State) (v : Word) (hm : s.ioIn.addrs = List.range s.cfg.nbIo) :
    IoAuto s (s.ioAutoPre.completed v) := s.ioTransact_auto v hm

theorem State.ioAutoPost_auto (s : State) (v : Word) (hm : s.ioIn.addrs = List.range s.cfg.nbIo) :
    IoAuto s (s.ioAutoPost.completed v) := s.ioTransact_auto v hm

/-- The transaction IN_CFG.AUTO asks for, with any RESULT after it. -/
theorem State.inAutoPre_auto (s : State) (v : Word) (hm : s.inBuf.addrs = List.range s.cfg.nbIn) :
    InAuto s (s.inAutoPre.completed v) := by
  unfold InAuto State.inAutoPre
  split
  · refine ⟨?_, ?_⟩
    · have h := s.inTransact_spec hm
      exact ⟨h.wire, fun b i hb hi => by simpa using h.inBuf b i hb hi, h.source⟩
    · exact frame_mono (frame_trans s.inTransact_frame (State.completed_frame _ v)) (by simp)
  · exact State.completed_frame _ v

/-! ### Unit numbers (30_encoding.md R92) -/

theorem withGroup_some {g : Nat} {s : State} {gc : GroupCfg} {ch : ChaseState} (f : GroupCfg → ChaseState → Answer)
    (h1 : s.cfg.groups[g]? = some gc) (h2 : s.chase[g]? = some ch) : withGroup g s f = f gc ch := by
  simp [withGroup, h1, h2]

theorem withToggle_some {u : Nat} {s : State} {k : Nat} {t : ToggleState} (f : Nat → ToggleState → Answer)
    (h1 : s.cfg.toggles[u]? = some k) (h2 : s.toggles[u]? = some t) : withToggle u s f = f k t := by
  simp [withToggle, h1, h2]

theorem withSelect_some {u : Nat} {s : State} {sc : SelectCfg} {st : Option Nat} (f : SelectCfg → Option Nat → Answer)
    (h1 : s.cfg.selects[u]? = some sc) (h2 : s.selects[u]? = some st) : withSelect u s f = f sc st := by
  simp [withSelect, h1, h2]

theorem withNoLamp_some {u : Nat} {s : State} {nc : NoLampCfg} {t : NoLampState} (f : NoLampCfg → NoLampState → Answer)
    (h1 : s.cfg.noLamps[u]? = some nc) (h2 : s.noLamps[u]? = some t) : withNoLamp u s f = f nc t := by
  simp [withNoLamp, h1, h2]

/-- A list indexed below the length of another of the same length. -/
theorem getElem?_of_length {α β : Type} {l : List α} {l' : List β} {g : Nat} {x : α} (hl : l'.length = l.length)
    (h : l[g]? = some x) : ∃ y, l'[g]? = some y := by
  have := (List.getElem?_eq_some_iff.mp h).1
  exact ⟨l'[g]'(by omega), List.getElem?_eq_getElem (by omega)⟩

/-! ### Byte writes -/

theorem State.setPix_byte_pix (s : State) (m : Memory) (a : Nat) :
    (s.setPix m).byte .pix a = (m.read? a).getD (Config.absentByte .pix a) := rfl

theorem State.setIoOut_byte_ioOut (s : State) (m : Memory) (a : Nat) :
    (s.setIoOut m).byte .ioOut a = (m.read? a).getD (Config.absentByte .ioOut a) := rfl

theorem State.setDig_byte_dig (s : State) (m : Memory) (a : Nat) :
    (s.setDig m).byte .dig a = (m.read? a).getD (Config.absentByte .dig a) := rfl

theorem State.byte_eq (s : State) (sp : Space) (a : Nat) :
    s.byte sp a = ((s.space sp).read? a).getD (Config.absentByte sp a) := rfl

/-- A buffer written everywhere in a range of writes, one a byte. -/
theorem Memory.read?_writeAll_map (m : Memory) (l : List Nat) (f : Nat → Nat) (v : Nat → Byte) (a j : Nat)
    (hj : j ∈ l) (ha : f j = a) (hinj : ∀ k ∈ l, f k = a → v k = v j) :
    (m.writeAll (l.map fun k => (f k, v k))).read? a = (m.read? a).map fun _ => v j := by
  rw [Memory.read?_writeAll]
  congr 1
  funext x
  refine lastWrite_of_mem x ?_ ?_
  · exact List.mem_map.mpr ⟨j, hj, by rw [ha]⟩
  · intro p hp hpa
    obtain ⟨k, hk, rfl⟩ := List.mem_map.mp hp
    exact hinj k hk hpa

theorem Memory.read?_writeAll_of_not_mem (m : Memory) (l : List (Nat × Byte)) (a : Nat) (h : ∀ p ∈ l, p.1 ≠ a) :
    (m.writeAll l).read? a = m.read? a := by
  rw [Memory.read?_writeAll]
  have : lastWrite l a = id := funext fun v => lastWrite_of_not_mem v h
  rw [this, Option.map_id, id]

/-! ### Lamp bits (R66, R170) -/

/-- A lamp bit after one was written (R171). -/
theorem State.setLampBit_lampBit (s : State) (k : Nat) (v : Bool) (k' : Nat)
    (hk : ∃ b, s.ioOut.read? (k / 8) = some b) :
    (s.setLampBit k v).lampBit k' = if k' = k then v else s.lampBit k' := by
  obtain ⟨b, hb⟩ := hk
  simp only [State.lampBit, State.bit, State.byte, State.space, State.setLampBit, Memory.read?_modify]
  by_cases h8 : k / 8 = k' / 8
  · rw [if_pos h8, ← h8, hb]
    simp only [Option.map_some, Option.getD_some]
    rw [getLsbD_setBit _ _ _ _ (Nat.mod_lt _ (by omega)) (Nat.mod_lt _ (by omega))]
    by_cases he : k' = k
    · simp [he]
    · have : ¬ k' % 8 = k % 8 := by omega
      simp [he, this]
  · have : ¬ k' = k := by intro h; exact h8 (by rw [h])
    rw [if_neg h8, if_neg this]

/-- The lamps of a select's range after SelLamps (R255); every other lamp bit stays. -/
theorem State.selLamps_lampBit (s : State) (sc : SelectCfg) (st : Option Nat) (k : Nat)
    (hb : ∀ i, i < sc.count → ∃ b, s.ioOut.read? ((sc.offset + i) / 8) = some b) :
    (s.selLamps sc st).lampBit k =
      if sc.offset ≤ k ∧ k < sc.offset + sc.count then selLamp sc st (k - sc.offset) else s.lampBit k := by
  unfold State.selLamps
  have gen : ∀ (n : Nat), n ≤ sc.count →
      (((List.range n).foldl (fun s i => s.setLampBit (sc.offset + i) (selLamp sc st i)) s).lampBit k =
        if sc.offset ≤ k ∧ k < sc.offset + n then selLamp sc st (k - sc.offset) else s.lampBit k) ∧
      ∀ a, (∃ b, s.ioOut.read? a = some b) → ∃ b,
        ((List.range n).foldl (fun s i => s.setLampBit (sc.offset + i) (selLamp sc st i)) s).ioOut.read? a = some b := by
    intro n
    induction n with
    | zero =>
      intro _
      refine ⟨?_, fun a h => h⟩
      have : ¬ (sc.offset ≤ k ∧ k < sc.offset + 0) := by omega
      simp only [List.range_zero, List.foldl_nil, if_neg this]
    | succ n ih =>
      intro hn
      obtain ⟨h1, h2⟩ := ih (by omega)
      rw [List.range_succ, List.foldl_append]
      refine ⟨?_, ?_⟩
      · rw [List.foldl_cons, List.foldl_nil, State.setLampBit_lampBit _ _ _ _ (h2 _ (hb n (by omega))), h1]
        by_cases he : k = sc.offset + n
        · rw [if_pos he, if_pos (by omega), he]; congr 1; omega
        · rw [if_neg he]
          by_cases hr : sc.offset ≤ k ∧ k < sc.offset + n
          · rw [if_pos hr, if_pos (by omega)]
          · rw [if_neg hr, if_neg (by omega)]
      · intro a ha
        obtain ⟨b, hb'⟩ := h2 a ha
        refine ⟨if (sc.offset + n) / 8 = a then setBit b ((sc.offset + n) % 8) (selLamp sc st n) else b, ?_⟩
        · rw [List.foldl_cons, List.foldl_nil]
          rw [State.setLampBit_ioOut, Memory.read?_modify, hb']
          split <;> rfl
  exact (gen sc.count (Nat.le_refl _)).1

/-! ### The select scan (R256) -/

/-- The scan answers the highest pressed index of the range, none where none is pressed. -/
theorem State.selScan_spec (s : State) (sc : SelectCfg) :
    (∀ i, s.selScan sc = some i ↔ i < sc.count ∧ s.buttonBit (sc.offset + i) = true ∧
      ∀ j, i < j → j < sc.count → s.buttonBit (sc.offset + j) = false) ∧
    (s.selScan sc = none ↔ ∀ i, i < sc.count → s.buttonBit (sc.offset + i) = false) := by
  unfold State.selScan
  induction sc.count with
  | zero => simp
  | succ n ih =>
    obtain ⟨h1, h2⟩ := ih
    rw [List.range_succ, List.foldl_append, List.foldl_cons, List.foldl_nil]
    cases hb : s.buttonBit (sc.offset + n) with
    | true =>
      rw [if_pos rfl]
      refine ⟨?_, ?_⟩
      · intro i
        constructor
        · rintro h
          cases h
          exact ⟨by omega, hb, fun j h1 h2 => by omega⟩
        · rintro ⟨hi, hp, hj⟩
          by_cases he : i = n
          · rw [he]
          · exact absurd (hj n (by omega) (by omega)) (by rw [hb]; simp)
      · constructor
        · intro h; cases h
        · intro h; exact absurd (h n (by omega)) (by rw [hb]; simp)
    | false =>
      rw [if_neg (by simp)]
      refine ⟨?_, ?_⟩
      · intro i
        rw [h1]
        constructor
        · rintro ⟨hi, hp, hj⟩
          refine ⟨by omega, hp, fun j hij hjn => ?_⟩
          by_cases he : j = n
          · rw [he]; exact hb
          · exact hj j hij (by omega)
        · rintro ⟨hi, hp, hj⟩
          have : i ≠ n := by intro he; rw [he, hb] at hp; cases hp
          exact ⟨by omega, hp, fun j hij hjn => hj j hij (by omega)⟩
      · rw [h2]
        constructor
        · intro h i hi
          by_cases he : i = n
          · rw [he]; exact hb
          · exact h i (by omega)
        · intro h i hi; exact h i (by omega)

end Sys2Proof.Machine
end

