-- ==== Sys2Proof/Laws/Image.lean ====
section
/-! SUPPORT. What an external output chain shows after its bytes were shifted and latched (20_memory.md R75). -/

namespace Sys2Proof.Machine

open Sys2Proof.Safety

/-- Block j of blocks of eight laid end to end. -/
theorem take_drop_flatMap (f : Nat → List Bool) (hf : ∀ b, (f b).length = 8) (n j : Nat) (hj : j < n) :
    (((List.range n).flatMap f).drop (8 * j)).take 8 = f j := by
  apply List.ext_getElem?
  intro k
  rw [List.getElem?_take]
  by_cases hk : k < 8
  · rw [if_pos hk, List.getElem?_drop, getElem?_flatMap_const f 8 (by omega) hf,
      show (8 * j + k) / 8 = j by omega, show (8 * j + k) % 8 = k by omega, List.getElem?_range hj]
    rfl
  · rw [if_neg hk, List.getElem?_eq_none (by rw [hf]; omega)]

/-- The chain's bytes are those shifted, the byte shifted first in the farthest board (R65, R75). -/
theorem chainBytes_shifted (n : Nat) (f : Nat → Byte) :
    chainBytes n ((List.range n).reverse.flatMap fun b => msbBits (f b)).reverse = (List.range n).map f := by
  have hrev : ((List.range n).reverse.flatMap fun b => msbBits (f b)).reverse =
      (List.range n).flatMap fun b => (msbBits (f b)).reverse := by
    rw [List.reverse_flatMap, List.reverse_reverse]; rfl
  rw [hrev, chainBytes]
  refine List.map_congr_left fun j hj => ?_
  rw [take_drop_flatMap _ (fun _ => by simp) n j (List.mem_range.mp hj), List.reverse_reverse, byteOfMsb_msbBits]

/-- The data-out bits a list of cells of one channel drives. -/
def cellBits (es : List Event) : List Bool := es.filterMap fun e => match e with | .cell _ (some d) _ => some d | _ => none

/-- Cells of the chain's channel push their bits; the newest 8·n stay. -/
theorem foldl_see_cells (ch : Channel) (l : Latch) (n : Nat) (es : List Event)
    (hes : ∀ e ∈ es, ∃ d i, e = .cell ch (some d) i) (c : Chain) (hc : c.bits.length ≤ 8 * n) :
    es.foldl (Chain.see ch l n) c = { c with bits := ((cellBits es).reverse ++ c.bits).take (8 * n) } := by
  induction es generalizing c with
  | nil =>
    have : c.bits.take (8 * n) = c.bits := List.take_of_length_le hc
    simp [cellBits, this]
  | cons e es ih =>
    obtain ⟨d, i, rfl⟩ := hes e (by simp)
    rw [List.foldl_cons, ih (fun e he => hes e (by simp [he]))]
    · simp only [Chain.see, if_true]
      congr 1
      have hcb : cellBits (.cell ch (some d) i :: es) = d :: cellBits es := rfl
      rw [hcb, List.reverse_cons, List.append_assoc, List.singleton_append]
      rw [List.take_append, List.take_append, List.take_take]
      congr 2
      omega
    · simp [Chain.see]

/-- After eight bits a board and a pulse, the chain shows exactly those bits (R75). -/
theorem foldl_see_latched (ch : Channel) (l : Latch) (n : Nat) (es : List Event) (c : Chain)
    (hes : ∀ e ∈ es, ∃ d i, e = .cell ch (some d) i) (hlen : (cellBits es).length = 8 * n)
    (hc : c.bits.length ≤ 8 * n) :
    (Chain.see ch l n (es.foldl (Chain.see ch l n) c) (.latchPulse l)).shown =
      some (chainBytes n (cellBits es).reverse) := by
  rw [foldl_see_cells ch l n es hes c hc]
  have : ((cellBits es).reverse ++ c.bits).take (8 * n) = (cellBits es).reverse := by
    rw [List.take_append_of_le_length (by simp [hlen]), List.take_of_length_le (by simp [hlen])]
  simp [Chain.see, this, hlen]

/-- A chain never holds more than its 8·n bits. -/
theorem foldl_see_length (ch : Channel) (l : Latch) (n : Nat) (es : List Event) (c : Chain) (hc : c.bits.length ≤ 8 * n) :
    (es.foldl (Chain.see ch l n) c).bits.length ≤ 8 * n := by
  induction es generalizing c with
  | nil => exact hc
  | cons e es ih =>
    refine ih _ ?_
    unfold Chain.see
    split
    · split
      · simp
      · exact hc
    · split <;> exact hc
    · exact hc

theorem cellBits_outCells (ch : Channel) (v : Byte) : cellBits (outCells ch v) = msbBits v := rfl

theorem cellBits_append (a b : List Event) : cellBits (a ++ b) = cellBits a ++ cellBits b := by
  simp [cellBits]

theorem cellBits_flatMap {α : Type} (l : List α) (f : α → List Event) :
    cellBits (l.flatMap f) = l.flatMap fun a => cellBits (f a) := by
  induction l with
  | nil => rfl
  | cons a l ih => rw [List.flatMap_cons, cellBits_append, ih, List.flatMap_cons]

end Sys2Proof.Machine
end

