-- ==== Sys2Proof/Laws/PerInstr.lean ====
section
/-! SUPPORT. One lemma per command: the word of a well-formed command has its row's OPC and no reserved bit set
(30_encoding.md R96, R98). -/

namespace Sys2Proof.Laws.EncodeShape

/-- The encoding of a well-formed command has the OPC of its row of R95 and every reserved bit 0. -/
def Statement (i : Instr) : Prop :=
  i.wellFormed = true → fieldOpc (encode i) = i.opcode.code ∧ encode i &&& i.opcode.resMask = 0

/-- The statement from the reserved bits of the row, field by field. -/
theorem statement_of_fields {i : Instr}
    (h : i.wellFormed = true → (i.opcode.unitKind = .single → BitVec.ofNat 8 i.fields.2.1 = 0) ∧
      (i.opcode.takesA = false → BitVec.ofNat 16 i.fields.2.2.1 = 0) ∧
      i.fields.2.2.2 &&& i.opcode.layout.reserved = 0) : Statement i :=
  fun hw => ⟨fieldOpc_packWord _ _ _ _, (packWord_and_resMask _ _ _ _ _).mpr (h hw)⟩

/-- A layout without reserved bits. -/
theorem and_none (x : Word) : x &&& 0 = 0 := BitVec.and_zero

/-- A value of `k` bits in the low bits of B leaves the layout's reserved bits 0. -/
theorem low_bits (l : Layout) {k : Nat} (hl : l.reserved = BitVec.allOnes 32 <<< k) (c : BitVec k) :
    c.setWidth 32 &&& l.reserved = 0 := by
  refine layout_reserved_and l k _ hl ?_
  rw [BitVec.toNat_setWidth]
  exact Nat.lt_of_le_of_lt (Nat.mod_le _ _) c.isLt

theorem pixSetPixel (i : Nat) (c : Colour) : Statement (.pixSetPixel i c) :=
  statement_of_fields fun _ => ⟨fun _ => rfl, fun h => absurd h Bool.noConfusion,
    low_bits .color24 rfl c⟩

theorem pixSetAll (c : Colour) : Statement (.pixSetAll c) :=
  statement_of_fields fun _ => ⟨fun _ => rfl, fun _ => rfl,
    low_bits .color24 rfl c⟩

theorem pixFillRaw (v : Byte) : Statement (.pixFillRaw v) :=
  statement_of_fields fun _ => ⟨fun _ => rfl, fun _ => rfl,
    low_bits .byte8 rfl v⟩

theorem pixSetOrder (m : Byte) : Statement (.pixSetOrder m) :=
  statement_of_fields fun _ => ⟨fun _ => rfl, fun _ => rfl,
    low_bits .laneMap8 rfl m⟩

theorem pixTransmit : Statement .pixTransmit :=
  statement_of_fields fun _ => ⟨fun _ => rfl, fun _ => rfl,
    BitVec.zero_and⟩

theorem pixGetPixel (i : Nat) : Statement (.pixGetPixel i) :=
  statement_of_fields fun _ => ⟨fun _ => rfl, fun h => absurd h Bool.noConfusion,
    BitVec.zero_and⟩

theorem ioSetLamp (k : Nat) (v : Bool) : Statement (.ioSetLamp k v) :=
  statement_of_fields fun _ => ⟨fun _ => rfl, fun h => absurd h Bool.noConfusion,
    low_bits .bit1 rfl (BitVec.ofBool v)⟩

theorem ioSetLampAll (v : Bool) : Statement (.ioSetLampAll v) :=
  statement_of_fields fun _ => ⟨fun _ => rfl, fun _ => rfl,
    low_bits .bit1 rfl (BitVec.ofBool v)⟩

theorem ioGetButton (k : Nat) : Statement (.ioGetButton k) :=
  statement_of_fields fun _ => ⟨fun _ => rfl, fun h => absurd h Bool.noConfusion,
    BitVec.zero_and⟩

theorem ioCountPressed : Statement .ioCountPressed :=
  statement_of_fields fun _ => ⟨fun _ => rfl, fun _ => rfl,
    BitVec.zero_and⟩

theorem ioCountPressedRange (o n : Nat) : Statement (.ioCountPressedRange o n) :=
  statement_of_fields fun hw => ⟨fun _ => rfl, fun h => absurd h Bool.noConfusion,
    layout_reserved_and .count16 16 (BitVec.ofNat 32 n) rfl (by simp [Instr.wellFormed, fits16] at hw; simp; omega)⟩

theorem ioRawWrite (b : Nat) (v : Byte) : Statement (.ioRawWrite b v) :=
  statement_of_fields fun _ => ⟨fun _ => rfl, fun h => absurd h Bool.noConfusion,
    low_bits .byte8 rfl v⟩

theorem ioRawRead (b : Nat) : Statement (.ioRawRead b) :=
  statement_of_fields fun _ => ⟨fun _ => rfl, fun h => absurd h Bool.noConfusion,
    BitVec.zero_and⟩

theorem ioTransact : Statement .ioTransact :=
  statement_of_fields fun _ => ⟨fun _ => rfl, fun _ => rfl,
    BitVec.zero_and⟩

theorem ioGetLamp (k : Nat) : Statement (.ioGetLamp k) :=
  statement_of_fields fun _ => ⟨fun _ => rfl, fun h => absurd h Bool.noConfusion,
    BitVec.zero_and⟩

theorem inTransact : Statement .inTransact :=
  statement_of_fields fun _ => ⟨fun _ => rfl, fun _ => rfl,
    BitVec.zero_and⟩

theorem inReadBit (k : Nat) : Statement (.inReadBit k) :=
  statement_of_fields fun _ => ⟨fun _ => rfl, fun h => absurd h Bool.noConfusion,
    BitVec.zero_and⟩

theorem inReadByte (b : Nat) : Statement (.inReadByte b) :=
  statement_of_fields fun _ => ⟨fun _ => rfl, fun h => absurd h Bool.noConfusion,
    BitVec.zero_and⟩

theorem digSetDigit (p d : Nat) (dp : Bool) : Statement (.digSetDigit p d dp) :=
  statement_of_fields fun _ => ⟨fun _ => rfl, fun h => absurd h Bool.noConfusion,
    low_bits .digDp rfl (BitVec.ofBool dp ++ BitVec.ofNat 8 d)⟩

theorem digCopySection (f t n : Nat) : Statement (.digCopySection f t n) :=
  statement_of_fields fun _ => ⟨fun _ => rfl, fun h => absurd h Bool.noConfusion,
    and_none _⟩

theorem digTransmit : Statement .digTransmit :=
  statement_of_fields fun _ => ⟨fun _ => rfl, fun _ => rfl,
    BitVec.zero_and⟩

theorem digGetRaw (p : Nat) : Statement (.digGetRaw p) :=
  statement_of_fields fun _ => ⟨fun _ => rfl, fun h => absurd h Bool.noConfusion,
    BitVec.zero_and⟩

theorem grpShowNumber (g dpPos v : Nat) : Statement (.grpShowNumber g dpPos v) :=
  statement_of_fields fun _ => ⟨fun h => absurd h UnitKind.noConfusion, fun h => absurd h Bool.noConfusion,
    and_none _⟩

theorem grpShowSigned (g dpPos : Nat) (v : Int) : Statement (.grpShowSigned g dpPos v) :=
  statement_of_fields fun _ => ⟨fun h => absurd h UnitKind.noConfusion, fun h => absurd h Bool.noConfusion,
    and_none _⟩

theorem grpShowSymbol (g k : Nat) : Statement (.grpShowSymbol g k) :=
  statement_of_fields fun hw => ⟨fun h => absurd h UnitKind.noConfusion, fun _ => rfl,
    layout_reserved_and .sym3 3 (BitVec.ofNat 32 k) rfl (by simp [Instr.wellFormed, fitsUnit] at hw; simp; omega)⟩

theorem grpChase6 (g q : Nat) : Statement (.grpChase6 g q) :=
  statement_of_fields fun _ => ⟨fun h => absurd h UnitKind.noConfusion, fun h => absurd h Bool.noConfusion,
    BitVec.zero_and⟩

theorem grpChase6Step (g : Nat) : Statement (.grpChase6Step g) :=
  statement_of_fields fun _ => ⟨fun h => absurd h UnitKind.noConfusion, fun _ => rfl,
    BitVec.zero_and⟩

theorem grpChase8 (g q : Nat) : Statement (.grpChase8 g q) :=
  statement_of_fields fun _ => ⟨fun h => absurd h UnitKind.noConfusion, fun h => absurd h Bool.noConfusion,
    BitVec.zero_and⟩

theorem grpChase8Step (g : Nat) : Statement (.grpChase8Step g) :=
  statement_of_fields fun _ => ⟨fun h => absurd h UnitKind.noConfusion, fun _ => rfl,
    BitVec.zero_and⟩

theorem tglPoll (u : Nat) : Statement (.tglPoll u) :=
  statement_of_fields fun _ => ⟨fun h => absurd h UnitKind.noConfusion, fun _ => rfl,
    BitVec.zero_and⟩

theorem tglConsumeEvent (u : Nat) : Statement (.tglConsumeEvent u) :=
  statement_of_fields fun _ => ⟨fun h => absurd h UnitKind.noConfusion, fun _ => rfl,
    BitVec.zero_and⟩

theorem tglGetState (u : Nat) : Statement (.tglGetState u) :=
  statement_of_fields fun _ => ⟨fun h => absurd h UnitKind.noConfusion, fun _ => rfl,
    BitVec.zero_and⟩

theorem selPoll (u : Nat) : Statement (.selPoll u) :=
  statement_of_fields fun _ => ⟨fun h => absurd h UnitKind.noConfusion, fun _ => rfl,
    BitVec.zero_and⟩

theorem selGetState (u : Nat) : Statement (.selGetState u) :=
  statement_of_fields fun _ => ⟨fun h => absurd h UnitKind.noConfusion, fun _ => rfl,
    BitVec.zero_and⟩

theorem selSetState (u st : Nat) : Statement (.selSetState u st) :=
  statement_of_fields fun _ => ⟨fun h => absurd h UnitKind.noConfusion, fun h => absurd h Bool.noConfusion,
    BitVec.zero_and⟩

theorem nlPoll (u : Nat) : Statement (.nlPoll u) :=
  statement_of_fields fun _ => ⟨fun h => absurd h UnitKind.noConfusion, fun _ => rfl,
    BitVec.zero_and⟩

theorem nlConsumeEvent (u : Nat) : Statement (.nlConsumeEvent u) :=
  statement_of_fields fun _ => ⟨fun h => absurd h UnitKind.noConfusion, fun _ => rfl,
    BitVec.zero_and⟩

theorem nlGetState (u : Nat) : Statement (.nlGetState u) :=
  statement_of_fields fun _ => ⟨fun h => absurd h UnitKind.noConfusion, fun _ => rfl,
    BitVec.zero_and⟩

theorem statRead : Statement .statRead :=
  statement_of_fields fun _ => ⟨fun _ => rfl, fun _ => rfl,
    BitVec.zero_and⟩

theorem statClear : Statement .statClear :=
  statement_of_fields fun _ => ⟨fun _ => rfl, fun _ => rfl,
    BitVec.zero_and⟩

end Sys2Proof.Laws.EncodeShape
end

