-- ==== Sys2Proof/Machine/Waveform.lean ====
section
/-! DEFINITION. The pin activity inside one event (20_memory.md R71-R73): the levels an event drives, one after the other.
An observation, computed from the trace; no command reads it. -/

namespace Sys2Proof.Machine

/-- The clock pin of a channel at a level. -/
def Pins.setSck (pins : Pins) (ch : Channel) (v : Bool) : Pins :=
  match ch with
  | .pix => { pins with pixSck := v }
  | .io => { pins with ioSck := v }
  | .inp => { pins with inSck := v }
  | .dig => { pins with digSck := v }

/-- The data-out pin of a channel at a level; the input chain has none (R42). -/
def Pins.setSdo (pins : Pins) (ch : Channel) (v : Bool) : Pins :=
  match ch with
  | .pix => { pins with pixSdo := v }
  | .io => { pins with ioSdo := v }
  | .inp => pins
  | .dig => { pins with digSdo := v }

/-- The pins while a cell holds its bit and SCK is still low, the point at which din is sampled (R71, steps 1 and 2). -/
def Pins.samplePoint (pins : Pins) (ch : Channel) (dout : Option Bool) : Pins :=
  (match dout with
    | some d => pins.setSdo ch d
    | none => pins).setSck ch false

/-- The pin levels an event drives, in order. A cell: data out with SCK low, SCK high, SCK low (R71). A pulse: active,
then inactive (R72). An update strobe has no level (R305). -/
def Pins.waveform (p : LatchPols) (pins : Pins) : Event → List Pins
  | .cell ch dout _ =>
    [pins.samplePoint ch dout, (pins.samplePoint ch dout).setSck ch true, (pins.samplePoint ch dout).setSck ch false]
  | .latchPulse l => [pins.setLatch l (activeLevel p l), pins.setLatch l (!activeLevel p l)]
  | .latchAssert l => [pins.setLatch l (activeLevel p l)]
  | .latchRelease l => [pins.setLatch l (!activeLevel p l)]
  | .frameIdle => [pins.setSck .pix false]
  | .irqHold v => [{ pins with irqHold := v }]
  | .update _ => [pins]

/-- The pin levels a list of events drives, one event after the other. -/
def Pins.waveforms (p : LatchPols) : Pins → List Event → List Pins
  | _, [] => []
  | pins, e :: es => pins.waveform p e ++ Pins.waveforms p (pins.drive p e) es

/-- Every pin level a machine has driven since its construction, in order. -/
def State.waveforms (s : State) : List Pins := (Pins.atReset s.cfg.latchPol).waveforms s.cfg.latchPol s.trace

end Sys2Proof.Machine
end

