-- ==== Sys2Proof/Laws/Waveform.lean ====
section
/-! SUPPORT. The waveform of an event ends where the event leaves the pins (20_memory.md R71-R73). -/

namespace Sys2Proof.Machine

theorem Pins.waveform_getLast? (p : LatchPols) (pins : Pins) (e : Event) :
    (pins.waveform p e).getLast? = some (pins.drive p e) := by
  cases e with
  | cell ch dout din => cases ch <;> cases dout <;> rfl
  | latchPulse l => rfl
  | latchAssert l => rfl
  | latchRelease l => rfl
  | frameIdle => rfl
  | irqHold v => rfl
  | update u => rfl

/-- So does the waveform of a list of events. -/
theorem Pins.waveforms_getLast? (p : LatchPols) (pins : Pins) (es : List Event) (h : es ≠ []) :
    (pins.waveforms p es).getLast? = some (es.foldl (Pins.drive p) pins) := by
  induction es generalizing pins with
  | nil => exact absurd rfl h
  | cons e es ih =>
    rw [Pins.waveforms, List.getLast?_append, List.foldl_cons]
    by_cases hn : es = []
    · subst hn; simp [Pins.waveforms, Pins.waveform_getLast?]
    · rw [ih _ hn]; rfl

end Sys2Proof.Machine
end

