-- ==== Sys2Proof/Tests/Slice0.lean ====
section
/-! SUPPORT. The model's own tests. Expected values are those of spec/95_test_vectors.md (the row or rule is named at each
test) or worked by hand from the rule named. After them, one witness for the hypotheses of each obligation. -/

namespace Sys2Proof.Tests

open Sys2Proof Sys2Proof.Machine Sys2Proof.Safety

/-! ### Helpers -/

/-- A machine just constructed from `c`, its buffers at the listed bytes (0 beyond them). -/
def boot (c : Config) (pix ioOut ioIn inBuf dig : List Byte) : State :=
  State.construct c fun sp a =>
    match sp with
    | .pix => pix.getD a 0
    | .ioOut => ioOut.getD a 0
    | .ioIn => ioIn.getD a 0
    | .inBuf => inBuf.getD a 0
    | .dig => dig.getD a 0

/-- The bits of a byte in the order they are drawn, bit 7 first (20_memory.md R64). -/
def msbBits (b : Byte) : List Bool := ([7, 6, 5, 4, 3, 2, 1, 0] : List Nat).map b.getLsbD

/-- `s` whose environment presents these bytes on IO_SDI next. -/
def ioPresents (s : State) (l : List Byte) : State := { s with ioPins := ⟨l.flatMap msbBits, 0⟩ }

/-- `s` whose environment presents these bytes on IN_SDI next. -/
def inPresents (s : State) (l : List Byte) : State := { s with inPins := ⟨l.flatMap msbBits, 0⟩ }

/-- What `f` sees in the next state, if there is one. -/
def seen {α : Type} (a : Answer) (f : State → α) : Option α :=
  match a with
  | .next t => some (f t)
  | .fault _ => none
  | .refused _ => none

/-- The bytes of a buffer. -/
def bytes (m : Memory) : List Byte := m.map Prod.snd

/-- RESULT, the outcome and what `f` sees. -/
def seenR {α : Type} (a : Answer) (f : State → α) : Option (Word × Option CmdOutcome × α) :=
  seen a fun t => (t.result, t.outcome, f t)

/-- Sizes for the tests: NPIX = 2, NB_IO = 2, NB_IN = 2, NDIG = 4, one unit of each kind; tables REF. -/
def small : Config :=
  { Config.reference with
    npix := 2, nbIo := 2, nbIn := 2, ndig := 4, groups := [⟨0, 4⟩], toggles := [2],
    selects := [{ offset := 2, count := 3 }], noLamps := [{ bit := 1, states := 3 }] }

/-- `small` with every auto flag set. -/
def auto : Config := { small with pixAuto := true, ioAuto := true, inAuto := true, digAuto := true }

/-- The wire bytes a channel carries in a list of events, bit by bit as 95_test_vectors.md writes them. -/
def dout (ch : Channel) (l : List Byte) : List Event := (l.flatMap msbBits).map fun d => .cell ch (some d) none

/-- Output and input bytes of an IO transaction, first shifted first. -/
def exchanged (l : List (Byte × Byte)) : List Event :=
  l.flatMap fun b => ((msbBits b.1).zip (msbBits b.2)).map fun d => .cell .io (some d.1) (some d.2)

/-- The events of an IO transaction that exchanges these bytes (rule R182). -/
def ioTrace (l : List (Byte × Byte)) : List Event :=
  [.latchAssert .ioLatIn] ++ exchanged l ++ [.latchRelease .ioLatIn, .latchPulse .ioLatOut, .update .io]

/-! ### Pixel unit -/

/-- 1.1, row BRG: the permuted bytes of pixel 1. -/
theorem test_pix_set_pixel_brg :
    seenR (exec (.pixSetPixel 1 0x123456) { boot small [] [] [] [] [] with colorOrder := 0x12 }) (fun t => bytes t.pix) =
      some (0, some .complete, [0, 0, 0, 0x56, 0x12, 0x34]) := by decide

/-- P-7: the auto frame. -/
theorem test_pix_set_pixel_auto :
    seen (exec (.pixSetPixel 0 0x010203) (boot auto [] [] [] [] [])) (·.trace) =
      some ([.irqHold true] ++ dout .pix [1, 2, 3, 0, 0, 0] ++ [.irqHold false, .frameIdle, .update .pix]) := by decide

/-- 1.9, order BRG. -/
theorem test_pix_set_all :
    seenR (exec (.pixSetAll 0xA1B2C3) { boot small [] [] [] [] [] with colorOrder := 0x12 }) (fun t => bytes t.pix) =
      some (0, some .complete, [0xC3, 0xA1, 0xB2, 0xC3, 0xA1, 0xB2]) := by decide

/-- P-6. -/
theorem test_pix_fill_raw :
    seenR (exec (.pixFillRaw 0x10) { boot small [1, 2, 3, 4, 5, 6] [] [] [] [] with colorOrder := 0x12 })
      (fun t => bytes t.pix) = some (0, some .complete, [0x10, 0x10, 0x10, 0x10, 0x10, 0x10]) := by decide

/-- P-3. -/
theorem test_pix_set_order_rejected :
    seenR (exec (.pixSetOrder 0x25) (boot { small with debugOorNotify := true } [] [] [] [] []))
      (fun t => (t.colorOrder, t.status)) = some (0, some .rejected, 0x24, 2) := by decide

/-- P-11. -/
theorem test_pix_set_order_auto :
    seenR (exec (.pixSetOrder 0x21) (boot auto [] [] [] [] [])) (fun t => (t.colorOrder, t.trace)) =
      some (0, some .complete, 0x21, []) := by decide

/-- P-8: every pixel repeated GROUP_SIZE times. -/
theorem test_pix_transmit :
    seen (exec .pixTransmit (boot { small with groupSize := 3 } [0x0A, 0x0B, 0x0C, 0x0A, 0x0B, 0x0C] [] [] [] []))
      (·.trace) = some ([.irqHold true] ++ dout .pix (List.replicate 6 [0x0A, 0x0B, 0x0C]).flatten ++
        [.irqHold false, .frameIdle, .update .pix]) := by decide

/-- P-5: old bytes through the new order. -/
theorem test_pix_get_pixel :
    seenR (exec (.pixGetPixel 0) { boot small [0x12, 0x34, 0x56] [] [] [] [] with colorOrder := 0x06 })
      (fun t => bytes t.pix) = some (0x00563412, some .complete, [0x12, 0x34, 0x56, 0, 0, 0]) := by decide

/-- P-10. -/
theorem test_pix_get_pixel_rejected :
    seenR (exec (.pixGetPixel 2) (boot small [] [] [] [] [])) (fun t => t.status) = some (0, some .rejected, 0) := by decide

/-! ### I/O-board unit -/

/-- IO-1. -/
theorem test_io_set_lamp :
    seenR (exec (.ioSetLamp 15 true) (boot small [] [0, 0] [] [] [])) (fun t => (bytes t.ioOut, t.trace)) =
      some (0, some .complete, [0x00, 0x80], []) := by decide

/-- IO-2. -/
theorem test_io_set_lamp_rejected :
    seenR (exec (.ioSetLamp 16 true) (boot small [] [0, 0x80] [] [] [])) (fun t => bytes t.ioOut) =
      some (0, some .rejected, [0x00, 0x80]) := by decide

/-- IO-15: the logical value is stored, its complement goes out. -/
theorem test_io_set_lamp_all :
    seenR (exec (.ioSetLampAll true) (ioPresents (boot { auto with ioInvOut := true } [] [0, 0] [] [] []) [0, 0]))
      (fun t => (bytes t.ioOut, t.trace)) =
      some (0, some .complete, [0xFF, 0xFF], ioTrace [(0, 0), (0, 0)]) := by decide

/-- IO-11, its first read. -/
theorem test_io_get_button :
    seenR (exec (.ioGetButton 0) (ioPresents (boot { auto with nbIo := 1 } [] [] [] [] []) [1, 0]))
      (fun t => (bytes t.ioIn, t.ioPins)) = some (1, some .complete, [1], ⟨msbBits 0, 8⟩) := by decide

/-- IO-12: a rejected read runs no transaction. -/
theorem test_io_get_button_rejected :
    seenR (exec (.ioGetButton 8) (boot { auto with nbIo := 1 } [] [] [] [] [])) (·.trace) =
      some (0, some .rejected, []) := by decide

/-- 1.5. -/
theorem test_io_count_pressed :
    seenR (exec .ioCountPressed (ioPresents (boot auto [] [0, 0] [] [] []) [0x07, 0x81]))
      (fun t => (bytes t.ioIn, t.trace)) =
      some (5, some .complete, [0x81, 0x07], ioTrace [(0, 0x07), (0, 0x81)]) := by decide

/-- IO-7. -/
theorem test_io_count_pressed_range :
    seenR (exec (.ioCountPressedRange 10 100) (boot small [] [] [0xF0, 0x0F] [] [])) (·.trace) =
      some (2, some .complete, []) := by decide

/-- IO-10: the transaction runs for an empty range. -/
theorem test_io_count_pressed_range_empty :
    seenR (exec (.ioCountPressedRange 40 0) (ioPresents (boot auto [] [0, 0] [] [] []) [0, 0])) (·.trace) =
      some (0, some .complete, ioTrace [(0, 0), (0, 0)]) := by decide

/-- IO-3. -/
theorem test_io_raw_write :
    seenR (exec (.ioRawWrite 0 0x3C) (ioPresents (boot { auto with ioInvOut := true } [] [0, 0] [] [] []) [0x0F, 0xF0]))
      (fun t => (bytes t.ioOut, bytes t.ioIn, t.trace)) =
      some (0, some .complete, [0x3C, 0x00], [0xF0, 0x0F], ioTrace [(0xFF, 0x0F), (0xC3, 0xF0)]) := by decide

/-- IO-13. -/
theorem test_io_raw_read :
    seenR (exec (.ioRawRead 1) (boot small [] [] [0x12, 0x34] [] [])) (·.trace) = some (0x34, some .complete, []) := by decide

/-- IO-4. -/
theorem test_io_transact :
    seenR (exec .ioTransact (ioPresents (boot { small with nbIo := 3, ioInvIn := true } [] [1, 2, 3] [] [] [])
      [0xFF, 0x00, 0x81])) (fun t => (bytes t.ioIn, t.trace)) =
      some (0, some .complete, [0x7E, 0xFF, 0x00], ioTrace [(3, 0xFF), (2, 0x00), (1, 0x81)]) := by decide

/-- IO-14. -/
theorem test_io_get_lamp :
    seenR (exec (.ioGetLamp 15) (boot auto [] [0x00, 0x81] [] [] [])) (·.trace) = some (1, some .complete, []) ∧
    seenR (exec (.ioGetLamp 9) (boot auto [] [0x00, 0x81] [] [] [])) (·.trace) = some (0, some .complete, []) := by decide

/-! ### Input-chain unit -/

/-- IN-6: the first board gets the first byte, most significant bit first. -/
theorem test_in_transact :
    seenR (exec .inTransact (inPresents (boot small [] [] [] [] []) [0xAA, 0x0F])) (fun t => (bytes t.inBuf, t.trace)) =
      some (0, some .complete, [0xAA, 0x0F], [.latchAssert .inLat] ++
        ([0xAA, 0x0F].flatMap msbBits).map (fun d => .cell .inp none (some d)) ++
        [.latchRelease .inLat, .update .inp]) := by decide

/-- IN-2. -/
theorem test_in_read_bit :
    seenR (exec (.inReadBit 9) (boot small [] [] [] [0x11, 0x22] [])) (·.trace) = some (1, some .complete, []) ∧
    seenR (exec (.inReadBit 8) (boot small [] [] [] [0x11, 0x22] [])) (·.trace) = some (0, some .complete, []) := by decide

/-- IN-5, its first read. -/
theorem test_in_read_byte :
    seenR (exec (.inReadByte 0) (inPresents (boot { auto with nbIn := 1 } [] [] [] [0] []) [0x80]))
      (fun t => bytes t.inBuf) = some (0x80, some .complete, [0x80]) := by decide

/-- IN-4, its second read. -/
theorem test_in_read_byte_rejected :
    seenR (exec (.inReadByte 2) (boot auto [] [] [] [] [])) (·.trace) = some (0, some .rejected, []) := by decide

/-! ### Digit chain -/

/-- D-1. -/
theorem test_dig_set_digit :
    seenR (exec (.digSetDigit 3 9 true) (boot small [] [] [] [] [])) (fun t => bytes t.dig) =
      some (0, some .complete, [0, 0, 0, 0xF7]) := by decide

/-- D-3: a blank with its decimal point. -/
theorem test_dig_set_digit_blank :
    seenR (exec (.digSetDigit 0 255 true) (boot small [] [] [] [] [0xFF])) (fun t => bytes t.dig) =
      some (0, some .complete, [1, 0, 0, 0]) := by decide

/-- D-6. -/
theorem test_dig_copy_section :
    seenR (exec (.digCopySection 1 4 2) (boot { small with ndig := 6 } [] [] [] [] [1, 2, 3, 4, 5, 6]))
      (fun t => bytes t.dig) = some (0, some .complete, [1, 2, 3, 4, 2, 3]) := by decide

/-- 1.6. -/
theorem test_dig_copy_section_rejected :
    seenR (exec (.digCopySection 0 2 3) (boot { auto with debugOorNotify := true } [] [] [] [] [0x11, 0x22, 0x33, 0x44]))
      (fun t => (bytes t.dig, t.trace, t.status)) = some (0, some .rejected, [0x11, 0x22, 0x33, 0x44], [], 2) := by decide

/-- D-13. -/
theorem test_dig_transmit :
    seenR (exec .digTransmit (boot small [] [] [] [] [0xFC, 0x60, 0xDA, 0xF2])) (·.trace) =
      some (0, some .complete, dout .dig [0xF2, 0xDA, 0x60, 0xFC] ++ [.latchPulse .digLat, .update .dig]) := by decide

/-- D-14. -/
theorem test_dig_get_raw :
    seenR (exec (.digGetRaw 0) (boot auto [] [] [] [] [1])) (·.trace) = some (1, some .complete, []) ∧
    seenR (exec (.digGetRaw 4) (boot auto [] [] [] [] [1])) (·.trace) = some (0, some .rejected, []) := by decide

/-! ### Digit groups -/

/-- 2.7, the row S = 4, v = 5, dpPos = 3 under the three back-fill settings. -/
theorem test_grp_show_number_point :
    ([DpBackfill.dpDigitOnly, .countToDp, .none].map fun b =>
      seenR (exec (.grpShowNumber 0 3 5) (boot { small with dpBackfill := b } [] [] [] [] [0x55, 0x55, 0x55, 0x55]))
        (fun t => bytes t.dig)) =
      [some (3, some .complete, [0xB6, 0x00, 0xFD, 0x00]), some (3, some .complete, [0xB6, 0xFC, 0xFD, 0x00]),
       some (3, some .complete, [0xB6, 0x00, 0x01, 0x00])] := by decide

/-- 2.7, the row v = 4294967295. -/
theorem test_grp_show_number_truncated :
    seenR (exec (.grpShowNumber 0 0 4294967295) (boot small [] [] [] [] [])) (fun t => bytes t.dig) =
      some (4, some .complete, [0xB6, 0xF6, 0xDA, 0xE0]) := by decide

/-- 2.8, the row v = −1, dpPos = 3. -/
theorem test_grp_show_signed :
    seenR (exec (.grpShowSigned 0 3 (-1)) (boot small [] [] [] [] [])) (fun t => bytes t.dig) =
      some (0, some .complete, [0x60, 0x00, 0xFD, 0x02]) := by decide

/-- 1.4, the last case: overflow, and the byte behind the group is kept. -/
theorem test_grp_show_signed_overflow :
    seenR (exec (.grpShowSigned 0 0 (-5)) (boot { small with ndig := 2, groups := [⟨0, 1⟩, ⟨1, 1⟩] } [] [] [] [] [0, 0x77]))
      (fun t => bytes t.dig) = some (1, some .complete, [0xB6, 0x77]) := by decide

/-- 2.9, S = 5, error: the odd slack lies on the right; and S = 2, foul: the leading bytes are dropped. -/
theorem test_grp_show_symbol_message :
    seenR (exec (.grpShowSymbol 0 1) (boot { small with ndig := 6, groups := [⟨0, 6⟩] } [] [] [] [] [0x55]))
      (fun t => bytes t.dig) = some (0, some .complete, [0x00, 0x00, 0x0A, 0x0A, 0x9E, 0x00]) ∧
    seenR (exec (.grpShowSymbol 0 2) (boot { small with ndig := 2, groups := [⟨0, 2⟩] } [] [] [] [] [0x55, 0x55]))
      (fun t => bytes t.dig) = some (0, some .complete, [0x1C, 0x7C]) := by decide

/-- 2.9: kind 5 is rejected without a transmit. -/
theorem test_grp_show_symbol_rejected :
    seenR (exec (.grpShowSymbol 0 5) (boot { auto with ndig := 2, groups := [⟨0, 2⟩] } [] [] [] [] [0x55, 0x55]))
      (fun t => (bytes t.dig, t.trace)) = some (0, some .rejected, [0x55, 0x55], []) := by decide

/-- CH-2 and CH-3. -/
theorem test_grp_chase6 :
    seenR (exec (.grpChase6 0 5) (boot small [] [] [] [] [])) (fun t => (bytes t.dig, t.chase)) =
      some (0, some .complete, [4, 4, 4, 4], [⟨0, 0⟩]) ∧
    seenR (exec (.grpChase6 0 6) (boot small [] [] [] [] [])) (fun t => bytes t.dig) =
      some (0, some .rejected, [0, 0, 0, 0]) := by decide

/-- CH-5, its sixth step: the last entry, then the counter wraps. -/
theorem test_grp_chase6_step :
    seenR (exec (.grpChase6Step 0) { boot small [] [] [] [] [] with chase := [⟨5, 3⟩] }) (fun t => (bytes t.dig, t.chase)) =
      some (0, some .complete, [4, 4, 4, 4], [⟨0, 3⟩]) := by decide

/-- CH-4. -/
theorem test_grp_chase8 :
    seenR (exec (.grpChase8 0 7) (boot small [] [] [] [] [])) (fun t => bytes t.dig) =
      some (0, some .complete, [4, 4, 4, 4]) ∧
    seenR (exec (.grpChase8 0 8) (boot small [] [] [] [] [])) (fun t => bytes t.dig) =
      some (0, some .rejected, [0, 0, 0, 0]) := by decide

/-- CH-6, its fourth step. -/
theorem test_grp_chase8_step :
    seenR (exec (.grpChase8Step 0) { boot small [] [] [] [] [] with chase := [⟨1, 3⟩] }) (fun t => (bytes t.dig, t.chase)) =
      some (0, some .complete, [8, 8, 8, 8], [⟨1, 4⟩]) := by decide

/-! ### Button machines -/

/-- 2.11, poll 4: a second edge. -/
theorem test_tgl_poll :
    seenR (exec (.tglPoll 0) { boot small [] [4] [4] [] [] with toggles := [⟨true, false, true⟩] })
      (fun t => (t.toggles, bytes t.ioOut)) = some (1, some .complete, [⟨false, true, true⟩], [0, 0]) := by decide

/-- 2.11 with IO_AUTO = 1: two transactions, the edge decided on the first. -/
theorem test_tgl_poll_auto :
    seenR (exec (.tglPoll 0) (ioPresents (boot { auto with nbIo := 1, toggles := [0] } [] [0] [] [] []) [0x01, 0x55]))
      (fun t => (bytes t.ioIn, t.trace)) =
      some (1, some .complete, [0x55], ioTrace [(0, 0x01)] ++ ioTrace [(1, 0x55)]) := by decide

/-- 1.7, step 3. -/
theorem test_tgl_consume_event :
    seenR (exec (.tglConsumeEvent 0) { boot small [] [4] [4] [] [] with toggles := [⟨true, true, true⟩] }) (·.toggles) =
      some (1, some .complete, [⟨true, true, false⟩]) := by decide

/-- R254, its example. -/
theorem test_tgl_get_state :
    seenR (exec (.tglGetState 0) { boot auto [] [] [] [] [] with toggles := [⟨true, true, false⟩] }) (·.trace) =
      some (1, some .complete, []) := by decide

/-- 1.8: the highest index wins. -/
theorem test_sel_poll :
    seenR (exec (.selPoll 0) (boot small [] [0, 0] [0x14, 0] [] [])) (fun t => (t.selects, bytes t.ioOut)) =
      some (1, some .complete, [some 2], [0x10, 0]) := by decide

/-- 2.11, SEL_DEFAULT = 1. -/
theorem test_sel_poll_default :
    seenR (exec (.selPoll 0) (boot { small with selects := [⟨2, 3, true⟩] } [] [0x81, 0] [0, 0] [] []))
      (fun t => (t.selects, bytes t.ioOut)) = some (0, some .complete, [none], [0x9D, 0]) := by decide

/-- 2.11: RESET reads 0xFFFF. -/
theorem test_sel_get_state :
    seenR (exec (.selGetState 0) (boot small [] [] [] [] [])) (·.selects) = some (0xFFFF, some .complete, [none]) ∧
    seenR (exec (.selGetState 0) { boot small [] [] [] [] [] with selects := [some 2] }) (·.selects) =
      some (2, some .complete, [some 2]) := by decide

/-- 2.11: the accepted states, with no lamp refresh. -/
theorem test_sel_set_state :
    seenR (exec (.selSetState 0 1) (boot small [] [4, 0] [] [] [])) (fun t => (t.selects, bytes t.ioOut)) =
      some (0, some .complete, [some 1], [4, 0]) ∧
    seenR (exec (.selSetState 0 0xFFFF) { boot small [] [] [] [] [] with selects := [some 2] }) (·.selects) =
      some (0, some .complete, [none]) := by decide

/-- 2.11: 3 and 0xFFFE are rejected. -/
theorem test_sel_set_state_rejected :
    seenR (exec (.selSetState 0 3) (boot small [] [] [] [] [])) (·.selects) = some (0, some .rejected, [none]) ∧
    seenR (exec (.selSetState 0 0xFFFE) (boot small [] [] [] [] [])) (·.selects) = some (0, some .rejected, [none]) := by
  decide

/-- 2.11, no-lamp poll 5: the third state is followed by the first. -/
theorem test_nl_poll :
    seenR (exec (.nlPoll 0) { boot small [] [] [2, 0] [] [] with noLamps := [⟨2, false, false⟩] })
      (fun t => (t.noLamps, bytes t.ioOut)) = some (1, some .complete, [⟨0, true, true⟩], [0, 0]) := by decide

/-- R262: one transaction in auto mode. -/
theorem test_nl_poll_auto :
    seenR (exec (.nlPoll 0) (ioPresents (boot { auto with nbIo := 1 } [] [0] [] [] []) [2])) (·.trace) =
      some (1, some .complete, ioTrace [(0, 2)]) := by decide

/-- 2.11. -/
theorem test_nl_consume_event :
    seenR (exec (.nlConsumeEvent 0) { boot small [] [] [] [] [] with noLamps := [⟨1, false, true⟩] }) (·.noLamps) =
      some (1, some .complete, [⟨1, false, false⟩]) := by decide

/-- 2.11. -/
theorem test_nl_get_state :
    seenR (exec (.nlGetState 0) { boot small [] [] [] [] [] with noLamps := [⟨1, false, true⟩] }) (·.noLamps) =
      some (1, some .complete, [⟨1, false, true⟩]) := by decide

/-! ### Status unit -/

/-- S-1: STAT_READ returns both bits and keeps them. -/
theorem test_stat_read :
    seenR (exec .statRead { boot small [] [] [] [] [] with status := 3 }) (·.status) = some (3, some .complete, 3) := by decide

/-- S-1. -/
theorem test_stat_clear :
    seenR (exec .statClear { boot small [] [] [] [] [] with status := 3 }) (·.status) = some (0, some .complete, 0) := by decide

/-! ### Pins -/

/-- R71 and R72: data out, then SCK high, then low; an active-low pulse. -/
theorem test_waveform :
    ((Pins.waveform small.latchPol ((Pins.atReset small.latchPol).setSdo .dig false) (.cell .dig (some true) none)).map
      fun p => (p.digSdo, p.digSck)) = [(true, false), (true, true), (true, false)] ∧
    ((Pins.waveform { small.latchPol with digLat := .activeLow } (Pins.atReset { small.latchPol with digLat := .activeLow })
      (.latchPulse .digLat)).map (·.digLat)) = [false, true] := by decide

/-! ### Outcomes of a step -/

/-- 2.1, decode outcomes: the checks and their order. -/
theorem test_step_illegal :
    (([0x0000000000000000, 0x1600000000000000, 0x1601000000000001, 0x1400000000000001, 0x1401000000000000,
       0x1000000001000000, 0x5001000000000000, 0x6001000000000000, 0x6001000000000001, 0x7100000000000001] : List CmdWord).map
      fun w => seenR (step { boot small [] [] [] [] [] with host := [w] }) (·.status)) =
    ([IllegalInfo.undefinedOpcode, .undefinedOpcode, .undefinedOpcode, .reservedBits, .reservedBits, .reservedBits,
       .badUnit, .badUnit, .reservedBits, .reservedBits] : List IllegalInfo).map
      fun i => some (0, some (.illegal i), 1) := by decide

/-- The host's word is the command the step runs, first thing after reset. -/
theorem test_step_from_reset :
    seen (step (State.reset.withFetchWord 64 0x1000000100123456)) (fun t => (t.outcome, t.host, t.byte .pix 4)) =
      some (some .complete, [], 0x34) := by decide

/-- Reset memory has the canonical form (20_memory.md R60; log 25). -/
theorem test_reset_memory_wf :
    State.reset.pix.wf = true ∧ State.reset.ioOut.wf = true ∧ State.reset.ioIn.wf = true ∧
    State.reset.inBuf.wf = true ∧ State.reset.dig.wf = true := by decide

/-! ### Well-formedness: one ill-formed term for each check -/

theorem test_wellFormed_refuses_a :
    ([.pixSetPixel 65536 0, .pixGetPixel 65536, .ioSetLamp 65536 true, .ioGetButton 65536, .ioCountPressedRange 65536 0,
      .ioRawWrite 65536 0, .ioRawRead 65536, .ioGetLamp 65536, .inReadBit 65536, .inReadByte 65536,
      .digSetDigit 65536 0 false, .digCopySection 65536 0 0, .digGetRaw 65536, .grpShowNumber 0 65536 0,
      .grpShowSigned 0 65536 0, .grpChase6 0 65536, .grpChase8 0 65536, .selSetState 0 65536] : List Instr).all
      (fun i => !i.wellFormed) = true := by decide

theorem test_wellFormed_refuses_unit :
    ([.grpShowNumber 256 0 0, .grpShowSigned 256 0 0, .grpShowSymbol 256 0, .grpChase6 256 0, .grpChase6Step 256,
      .grpChase8 256 0, .grpChase8Step 256, .tglPoll 256, .tglConsumeEvent 256, .tglGetState 256, .selPoll 256,
      .selGetState 256, .selSetState 256 0, .nlPoll 256, .nlConsumeEvent 256, .nlGetState 256] : List Instr).all
      (fun i => !i.wellFormed) = true := by decide

theorem test_wellFormed_refuses_b :
    ([.ioCountPressedRange 0 65536, .digSetDigit 0 256 false, .digCopySection 0 65536 0, .digCopySection 0 0 65536,
      .grpShowNumber 0 0 4294967296, .grpShowSigned 0 0 2147483648, .grpShowSigned 0 0 (-2147483649),
      .grpShowSymbol 0 8] : List Instr).all (fun i => !i.wellFormed) = true := by decide

/-! ### Decoding: for every command a word written from R90 and R95, and what it stands for -/

theorem test_decode_pixel :
    decodeTableWord 64 0x1000000100123456 = some (.pixSetPixel 1 0x123456) ∧
    decodeTableWord 64 0x1100000000A1B2C3 = some (.pixSetAll 0xA1B2C3) ∧
    decodeTableWord 64 0x1200000000000010 = some (.pixFillRaw 0x10) ∧
    decodeTableWord 64 0x1300000000000021 = some (.pixSetOrder 0x21) ∧
    decodeTableWord 64 0x1400000000000000 = some .pixTransmit ∧
    decodeTableWord 64 0x1500FFFF00000000 = some (.pixGetPixel 65535) := by decide

theorem test_decode_ioboard :
    decodeTableWord 64 0x2000000900000001 = some (.ioSetLamp 9 true) ∧
    decodeTableWord 64 0x2100000000000001 = some (.ioSetLampAll true) ∧
    decodeTableWord 64 0x2200000800000000 = some (.ioGetButton 8) ∧
    decodeTableWord 64 0x2300000000000000 = some .ioCountPressed ∧
    decodeTableWord 64 0x2400000A00000064 = some (.ioCountPressedRange 10 100) ∧
    decodeTableWord 64 0x2500000100000081 = some (.ioRawWrite 1 0x81) ∧
    decodeTableWord 64 0x2600000200000000 = some (.ioRawRead 2) ∧
    decodeTableWord 64 0x2700000000000000 = some .ioTransact ∧
    decodeTableWord 64 0x2800000F00000000 = some (.ioGetLamp 15) := by decide

theorem test_decode_inputchain :
    decodeTableWord 64 0x3000000000000000 = some .inTransact ∧
    decodeTableWord 64 0x3100000700000000 = some (.inReadBit 7) ∧
    decodeTableWord 64 0x3200000300000000 = some (.inReadByte 3) := by decide

theorem test_decode_digits :
    decodeTableWord 64 0x4000000300000109 = some (.digSetDigit 3 9 true) ∧
    decodeTableWord 64 0x4100000100040002 = some (.digCopySection 1 4 2) ∧
    decodeTableWord 64 0x4200000000000000 = some .digTransmit ∧
    decodeTableWord 64 0x4300000400000000 = some (.digGetRaw 4) := by decide

theorem test_decode_groups :
    decodeTableWord 64 0x50010002000004D2 = some (.grpShowNumber 1 2 1234) ∧
    decodeTableWord 64 0x51020000FFFFFFFB = some (.grpShowSigned 2 0 (-5)) ∧
    decodeTableWord 64 0x5200000000000002 = some (.grpShowSymbol 0 2) ∧
    decodeTableWord 64 0x5300000500000000 = some (.grpChase6 0 5) ∧
    decodeTableWord 64 0x5401000000000000 = some (.grpChase6Step 1) ∧
    decodeTableWord 64 0x5503000700000000 = some (.grpChase8 3 7) ∧
    decodeTableWord 64 0x56FF000000000000 = some (.grpChase8Step 255) := by decide

theorem test_decode_buttons :
    decodeTableWord 64 0x6003000000000000 = some (.tglPoll 3) ∧
    decodeTableWord 64 0x6102000000000000 = some (.tglConsumeEvent 2) ∧
    decodeTableWord 64 0x6201000000000000 = some (.tglGetState 1) ∧
    decodeTableWord 64 0x6304000000000000 = some (.selPoll 4) ∧
    decodeTableWord 64 0x6405000000000000 = some (.selGetState 5) ∧
    decodeTableWord 64 0x6501FFFF00000000 = some (.selSetState 1 0xFFFF) ∧
    decodeTableWord 64 0x6606000000000000 = some (.nlPoll 6) ∧
    decodeTableWord 64 0x6707000000000000 = some (.nlConsumeEvent 7) ∧
    decodeTableWord 64 0x6808000000000000 = some (.nlGetState 8) := by decide

theorem test_decode_status :
    decodeTableWord 64 0x7000000000000000 = some .statRead ∧
    decodeTableWord 64 0x7100000000000000 = some .statClear ∧
    decodeTableWord 64 0x7200000000000000 = none := by decide

/-- Each row of spec/opcode_table.json has the OPC, and the mask the OPC byte and RESMASK, of its command (R96). -/
theorem test_table_rows :
    tableRows.map (·.op) = Opcode.all ∧
    tableRows.all (fun r => r.value == r.op.code ++ 0#56 && r.mask == (0xFF#8 ++ 0#56 ||| r.op.resMask)) = true := by decide

/-- The undefined ranges of R97 are the codes no row has. -/
theorem test_undefined_opcodes :
    (List.range 256).all (fun n => undefinedOpc (BitVec.ofNat 8 n) == (Opcode.ofCode (BitVec.ofNat 8 n)).isNone) = true := by
  decide +kernel

/-! ### The assembler (R101) -/

/-- 95_test_vectors.md 2.1 and R102. -/
theorem test_assemble :
    (["pix.set_pixel 1, 0x00FF80", "pix.set_order bgr", "dig.set_digit 3, 9, 1", "io.count_pressed_range 6, 4",
      "grp.show_number g1, 1234, 2", "grp.show_signed g2, -5, 0", "grp.show_symbol g0, foul", "sel.set_state s1, reset",
      "grp.chase8 g3, 7", "tgl.poll t0", "nl.poll n6", "stat.read"] : List String).map assembleText =
    ([0x100000010000FF80, 0x1300000000000006, 0x4000000300000109, 0x2400000600000004, 0x50010002000004D2,
      0x51020000FFFFFFFB, 0x5200000000000002, 0x6501FFFF00000000, 0x5503000700000000, 0x6000000000000000,
      0x6606000000000000, 0x7000000000000000] : List CmdWord).map some := by decide

theorem test_assemble_pseudo :
    (["pix.blank", "io.lamps_off", "io.lamps_on", "grp.clear g4", "sel.clear s1"] : List String).map assembleText =
    ([0x1200000000000000, 0x2100000000000000, 0x2100000000000001, 0x5204000000000000, 0x6501FFFF00000000] : List CmdWord).map
      some := by decide

/-- Operands that do not fit, or are of another kind, are assembly errors (R101). -/
theorem test_assemble_errors :
    (["pix.set_all 0x1000000", "io.count_pressed_range 0, 65536", "dig.set_digit 0, 256, 0", "grp.show_number g0, -1, 0",
      "tgl.poll g0", "tgl.poll t256", "io.set_lamp 0, 2", "pix.transmit 0", "PIX.BLANK", "pix.set_all"] : List String).all
      (fun l => (assembleText l).isNone) = true := by decide

/-! ### Witnesses: for each obligation with hypotheses, a state and operands that meet them all, at the ends of the ranges -/

/-- A machine with its counters, selection and unit states at their highest values. -/
def lively : State :=
  { boot small [1, 2, 3, 4, 5, 6] [1, 2] [3, 4] [5, 6] [7, 8, 9, 10] with
    selects := [some 2], noLamps := [⟨2, true, true⟩], toggles := [⟨true, false, true⟩], chase := [⟨5, 7⟩], status := 1 }

/-- The same with every auto flag, both inversions and the notification set. -/
def livelyAuto : State :=
  { boot { auto with ioInvIn := true, ioInvOut := true, debugOorNotify := true } [1, 2, 3, 4, 5, 6] [1, 2] [3, 4] [5, 6]
      [7, 8, 9, 10] with
    selects := [some 2], noLamps := [⟨2, true, true⟩], toggles := [⟨true, false, true⟩], chase := [⟨5, 7⟩], status := 3 }

theorem lively_intact : Intact lively where
  legal := by decide
  halted := by decide
  pix := by decide
  ioOut := by decide
  ioIn := by decide
  inBuf := by decide
  dig := by decide
  pixCfg := by decide
  ioCfg := by decide
  inCfg := by decide
  digCfg := by decide
  order := by decide
  statusReserved := by decide
  statusOor := by decide
  chase := by decide
  toggles := by decide
  selects := by decide
  selectRange := by
    rintro (_ | u) sc i h1 h2
    · cases h1; cases h2; decide
    · cases h1
  noLamps := by decide
  noLampRange := by
    rintro (_ | u) nc t h1 h2
    · cases h1; cases h2; decide
    · cases h1
  pins := by decide

theorem livelyAuto_intact : Intact livelyAuto where
  legal := by decide
  halted := by decide
  pix := by decide
  ioOut := by decide
  ioIn := by decide
  inBuf := by decide
  dig := by decide
  pixCfg := by decide
  ioCfg := by decide
  inCfg := by decide
  digCfg := by decide
  order := by decide
  statusReserved := by decide
  statusOor := by decide
  chase := by decide
  toggles := by decide
  selects := by decide
  selectRange := by
    rintro (_ | u) sc i h1 h2
    · cases h1; cases h2; decide
    · cases h1
  noLamps := by decide
  noLampRange := by
    rintro (_ | u) nc t h1 h2
    · cases h1; cases h2; decide
    · cases h1
  pins := by decide

/-- DecodeOfEncode: the largest and the most negative operands are well formed. -/
theorem witness_DecodeOfEncode :
    (Instr.grpShowSigned 255 65535 (-2147483648)).wellFormed = true ∧ (Instr.grpShowSigned 0 0 2147483647).wellFormed = true ∧
    (Instr.grpShowNumber 255 65535 4294967295).wellFormed = true ∧ (Instr.digSetDigit 65535 255 true).wellFormed = true ∧
    (Instr.grpShowSymbol 255 7).wellFormed = true ∧ (Instr.digCopySection 65535 65535 65535).wellFormed = true := by decide

theorem witness_OneEncodingPerCommand : decode 0x51FFFFFF80000000 = .ok (.grpShowSigned 255 65535 (-2147483648)) := by decide

/-- DecodeRefusesByName: each refusal happens, at the ends of the undefined ranges. -/
theorem witness_DecodeRefusesByName :
    ([0x0F, 0x16, 0x1F, 0x29, 0x2F, 0x33, 0x3F, 0x44, 0x4F, 0x57, 0x5F, 0x69, 0x6F, 0x72, 0xFF] : List (BitVec 8)).all
      (fun b => decide (decode (b ++ 0#56) = .error .undefinedOpcode)) = true ∧
    decode 0x4000000000000200 = .error .reservedBits := by decide

theorem witness_PseudoInstructionsExpand :
    assemble .grpClear [.unit .group 255] = some (.grpShowSymbol 255 0) ∧
    assemble .selClear [.unit .select 0] = some (.selSetState 0 0xFFFF) := by decide

theorem witness_StepRunsDecodedCommand :
    ∃ (s : State) (w : CmdWord) (rest : List CmdWord) (i : Instr),
      s.cfg.legal = true ∧ s.halted = false ∧ s.host = w :: rest ∧ decode w = .ok i :=
  ⟨{ lively with host := [0x4200000000000000, 0] }, 0x4200000000000000, [0], .digTransmit,
    by decide, by decide, rfl, by decide⟩

/-- StepRaisesIllegal: each label the decoder gives. -/
theorem witness_StepRaisesIllegal :
    ∀ p ∈ [((0x7200000000000000 : CmdWord), IllegalInfo.undefinedOpcode), (0x4000000000000200, .reservedBits)],
      ∃ (s : State) (rest : List CmdWord),
        s.cfg.legal = true ∧ s.halted = false ∧ s.host = p.1 :: rest ∧ decode p.1 = .error p.2 := by
  intro p hp
  refine ⟨{ lively with host := [p.1] }, [], lively_intact.legal, rfl, rfl, ?_⟩
  revert p; decide

/-- OutOfRangeUnitIsIllegal: the first unit number beyond each count. -/
theorem witness_OutOfRangeUnitIsIllegal :
    Intact lively ∧ badUnit lively.cfg (.grpShowNumber 1 0 0) = true ∧ badUnit lively.cfg (.tglPoll 1) = true ∧
    badUnit lively.cfg (.selSetState 1 0) = true ∧ badUnit lively.cfg (.nlPoll 1) = true :=
  ⟨lively_intact, by decide⟩

/-- RejectedCallHasNoEffect: the first rejected argument of each row, with and without the notification. -/
theorem witness_RejectedCallHasNoEffect :
    Intact lively ∧ Intact livelyAuto ∧
    ([.pixSetPixel 2 0, .pixSetOrder 0x25, .pixGetPixel 2, .ioSetLamp 16 true, .ioGetButton 16, .ioGetLamp 16,
      .ioRawWrite 2 0, .ioRawRead 2, .inReadBit 16, .inReadByte 2, .digSetDigit 4 0 false, .digGetRaw 4,
      .digCopySection 0 2 3, .digCopySection 0 5 0, .grpShowSymbol 0 5, .grpChase6 0 6, .grpChase8 0 8,
      .selSetState 0 3, .selSetState 0 0xFFFE] : List Instr).all
      (fun i => !badUnit lively.cfg i && rejects lively.cfg i && !badUnit livelyAuto.cfg i && rejects livelyAuto.cfg i) =
      true := ⟨lively_intact, livelyAuto_intact, by decide⟩

/-- AcceptedCommandCompletes: the last accepted argument of each row, and each command without a condition. -/
theorem witness_AcceptedCommandCompletes :
    Intact lively ∧ Intact livelyAuto ∧
    ([.pixSetPixel 1 0, .pixSetAll 0, .pixFillRaw 0, .pixSetOrder 0x06, .pixTransmit, .pixGetPixel 1, .ioSetLamp 15 true,
      .ioSetLampAll true, .ioGetButton 15, .ioCountPressed, .ioCountPressedRange 65535 65535, .ioRawWrite 1 0, .ioRawRead 1,
      .ioTransact, .ioGetLamp 15, .inTransact, .inReadBit 15, .inReadByte 1, .digSetDigit 3 255 true, .digCopySection 2 2 0,
      .digCopySection 0 2 2, .digTransmit, .digGetRaw 3, .grpShowNumber 0 65535 4294967295, .grpShowSigned 0 0 (-2147483648),
      .grpShowSymbol 0 4, .grpChase6 0 5, .grpChase6Step 0, .grpChase8 0 7, .grpChase8Step 0, .tglPoll 0, .tglConsumeEvent 0,
      .tglGetState 0, .selPoll 0, .selGetState 0, .selSetState 0 2, .selSetState 0 0xFFFF, .nlPoll 0, .nlConsumeEvent 0,
      .nlGetState 0, .statRead, .statClear] : List Instr).all
      (fun i => !badUnit lively.cfg i && !rejects lively.cfg i && !badUnit livelyAuto.cfg i && !rejects livelyAuto.cfg i) =
      true := ⟨lively_intact, livelyAuto_intact, by decide⟩

/-- HaltedBit: `small` needs 16 bytes, so a capacity of 16 does not halt and one of 15 does. -/
theorem witness_HaltedBit :
    (boot { small with maxBufBytes := 16 } [] [] [] [] []).halted = false ∧
    (boot { small with maxBufBytes := 15 } [] [] [] [] []).halted = true ∧
    (boot { small with maxBufBytes := 15 } [] [] [] [] []).cfg.legal = true ∧
    (seen (step { lively with host := [0x4200000000000000] }) (·.halted)) = some false := by decide

theorem witness_IdleStepWaits : lively.cfg.legal = true ∧ lively.halted = false ∧ lively.host = [] := by decide

theorem witness_IllegalConfigurationRefused : (boot { small with npix := 0 } [] [] [] [] []).cfg.legal = false := by decide

/-- ConstructionValues: every range of the statement has a member in `small`. -/
theorem witness_ConstructionValues :
    ∃ (c : Config) (draw : Space → Nat → Byte), State.construct c draw = boot small [] [] [] [] [] ∧ 5 < 3 * c.npix ∧
      1 < c.nbIo ∧ 1 < c.nbIn ∧ 3 < c.ndig ∧ 0 < c.groups.length ∧ 0 < c.toggles.length ∧ 0 < c.selects.length ∧
      0 < c.noLamps.length := ⟨small, _, rfl, by decide⟩

/-- ConstructionIsIntact: legal configurations, with units and without. -/
theorem witness_ConstructionIsIntact :
    small.legal = true ∧ { small with groups := [], toggles := [], selects := [], noLamps := [] }.legal = true := by decide

/-- StepKeepsIntact and ConfigurationNeverChanges: a step that completes, from an intact state. -/
theorem witness_StepKeepsIntact :
    ∃ s t : State, Intact s ∧ step s = .next t ∧ t.outcome = some .complete :=
  ⟨{ livelyAuto with host := [0x6300000000000000] }, _, { livelyAuto_intact with }, rfl, rfl⟩

theorem witness_ConfigurationNeverChanges :
    ∃ s t : State, step s = .next t ∧ t.outcome = some .complete :=
  ⟨{ livelyAuto with host := [0x6300000000000000] }, _, rfl, rfl⟩

/-- StatusBitsAreSticky, TraceOnlyGrows and CommandsChangeOnlyTheirParts: an illegal, a rejected and a complete one. -/
theorem witness_StatusBitsAreSticky :
    (∃ t, exec (.selPoll 1) lively = .next t ∧ t.outcome = some (.illegal .badUnit)) ∧
    (∃ t, exec (.digGetRaw 4) livelyAuto = .next t ∧ t.outcome = some .rejected) ∧
    (∃ t, exec .statRead lively = .next t ∧ t.outcome = some .complete) ∧ Instr.statRead ≠ .statClear :=
  ⟨⟨_, rfl, rfl⟩, ⟨_, rfl, rfl⟩, ⟨_, rfl, rfl⟩, by decide⟩

/-- TraceOnlyGrows: two transactions, one and none. -/
theorem witness_TraceOnlyGrows :
    (seen (exec (.tglPoll 0) livelyAuto) fun t => updates t.trace) = some 2 ∧
    (seen (exec (.nlPoll 0) livelyAuto) fun t => updates t.trace) = some 1 ∧
    (seen (exec (.selPoll 0) lively) fun t => updates t.trace) = some 0 ∧ livelyAuto.ioAuto = true := by decide

theorem witness_CommandsChangeOnlyTheirParts :
    ∃ t, exec (.tglPoll 0) livelyAuto = .next t ∧ t.outcome = some .complete := ⟨_, rfl, rfl⟩

theorem witness_PermBijection : (0x24 : Byte) ∈ legalLaneMaps ∧ (0x06 : Byte) ∈ legalLaneMaps := by decide

/-- The pixel statements: the first and the last pixel, with and without auto transmit. -/
theorem witness_PixSetPixelEffect :
    Intact lively ∧ 0 < lively.cfg.npix ∧ 1 < lively.cfg.npix ∧ Intact livelyAuto ∧ 1 < livelyAuto.cfg.npix :=
  ⟨lively_intact, by decide, by decide, livelyAuto_intact, by decide⟩

theorem witness_PixSetAllEffect : Intact lively ∧ Intact livelyAuto := ⟨lively_intact, livelyAuto_intact⟩

theorem witness_PixFillRawEffect : Intact lively ∧ Intact livelyAuto := ⟨lively_intact, livelyAuto_intact⟩

theorem witness_PixSetOrderEffect :
    ∃ m : Byte, m = 0x24 ∨ m = 0x18 ∨ m = 0x21 ∨ m = 0x09 ∨ m = 0x12 ∨ m = 0x06 := ⟨0x06, by decide⟩

theorem witness_PixTransmitEffect : Intact lively ∧ Intact livelyAuto := ⟨lively_intact, livelyAuto_intact⟩

theorem witness_PixGetPixelResult : Intact livelyAuto ∧ 0 < livelyAuto.cfg.npix ∧ 1 < livelyAuto.cfg.npix :=
  ⟨livelyAuto_intact, by decide, by decide⟩

theorem witness_PixelRoundTrip : Intact livelyAuto ∧ 0 < livelyAuto.cfg.npix ∧ 1 < livelyAuto.cfg.npix :=
  ⟨livelyAuto_intact, by decide, by decide⟩

/-- The I/O statements: the first and the last bit and board. -/
theorem witness_IoSetLampEffect :
    Intact lively ∧ 0 < 8 * lively.cfg.nbIo ∧ 15 < 8 * lively.cfg.nbIo ∧ Intact livelyAuto ∧ 15 < 8 * livelyAuto.cfg.nbIo :=
  ⟨lively_intact, by decide, by decide, livelyAuto_intact, by decide⟩

theorem witness_IoSetLampAllEffect : Intact lively ∧ Intact livelyAuto := ⟨lively_intact, livelyAuto_intact⟩

theorem witness_IoRawWriteEffect :
    Intact lively ∧ 0 < lively.cfg.nbIo ∧ 1 < lively.cfg.nbIo ∧ Intact livelyAuto ∧ 1 < livelyAuto.cfg.nbIo :=
  ⟨lively_intact, by decide, by decide, livelyAuto_intact, by decide⟩

theorem witness_IoReadResults :
    Intact lively ∧ Intact livelyAuto ∧ 0 < 8 * livelyAuto.cfg.nbIo ∧ 15 < 8 * livelyAuto.cfg.nbIo ∧
    0 < livelyAuto.cfg.nbIo ∧ 1 < livelyAuto.cfg.nbIo :=
  ⟨lively_intact, livelyAuto_intact, by decide⟩

theorem witness_IoCountPressedResult : Intact lively ∧ Intact livelyAuto := ⟨lively_intact, livelyAuto_intact⟩

theorem witness_IoCountPressedRangeResult : Intact lively ∧ Intact livelyAuto := ⟨lively_intact, livelyAuto_intact⟩

theorem witness_IoGetLampResult : 0 < 8 * livelyAuto.cfg.nbIo ∧ 15 < 8 * livelyAuto.cfg.nbIo := by decide

theorem witness_IoTransactEffect : Intact lively ∧ Intact livelyAuto := ⟨lively_intact, livelyAuto_intact⟩

theorem witness_LampImageAfterTransact : Intact lively ∧ Intact livelyAuto := ⟨lively_intact, livelyAuto_intact⟩

theorem witness_LampRoundTrip :
    Intact livelyAuto ∧ 15 < 8 * livelyAuto.cfg.nbIo ∧ 1 < livelyAuto.cfg.nbIo ∧ 7 < 8 :=
  ⟨livelyAuto_intact, by decide⟩

/-- The input-chain statements: the first and the last bit and board. -/
theorem witness_InTransactEffect : Intact lively ∧ Intact livelyAuto := ⟨lively_intact, livelyAuto_intact⟩

theorem witness_InReadResults :
    Intact lively ∧ Intact livelyAuto ∧ 0 < 8 * livelyAuto.cfg.nbIn ∧ 15 < 8 * livelyAuto.cfg.nbIn ∧
    0 < livelyAuto.cfg.nbIn ∧ 1 < livelyAuto.cfg.nbIn :=
  ⟨lively_intact, livelyAuto_intact, by decide⟩

/-- The digit statements: the first and the last position; a copy that ends at the end of the chain, and empty ones. -/
theorem witness_DigSetDigitEffect :
    Intact lively ∧ 0 < lively.cfg.ndig ∧ 3 < lively.cfg.ndig ∧ Intact livelyAuto ∧ 3 < livelyAuto.cfg.ndig :=
  ⟨lively_intact, by decide, by decide, livelyAuto_intact, by decide⟩

theorem witness_DigCopySectionEffect :
    Intact lively ∧ Intact livelyAuto ∧ 0 + 2 ≤ 2 ∧ 2 + 2 ≤ livelyAuto.cfg.ndig ∧ 0 + 0 ≤ 4 ∧ 4 + 0 ≤ livelyAuto.cfg.ndig :=
  ⟨lively_intact, livelyAuto_intact, by decide⟩

theorem witness_DigTransmitEffect : Intact lively ∧ Intact livelyAuto := ⟨lively_intact, livelyAuto_intact⟩

theorem witness_DigitImageAfterTransmit : Intact lively ∧ Intact livelyAuto := ⟨lively_intact, livelyAuto_intact⟩

theorem witness_DigGetRawResult : 0 < livelyAuto.cfg.ndig ∧ 3 < livelyAuto.cfg.ndig := by decide

/-- The group statements: the one group there is; a decimal point at the top position, beyond it and none. -/
theorem witness_GrpShowNumberEffect :
    Intact lively ∧ Intact livelyAuto ∧ lively.cfg.groups[0]? = some ⟨0, 4⟩ ∧ livelyAuto.cfg.groups[0]? = some ⟨0, 4⟩ :=
  ⟨lively_intact, livelyAuto_intact, by decide⟩

theorem witness_GrpShowSignedEffect :
    Intact lively ∧ Intact livelyAuto ∧ lively.cfg.groups[0]? = some ⟨0, 4⟩ ∧ livelyAuto.cfg.groups[0]? = some ⟨0, 4⟩ :=
  ⟨lively_intact, livelyAuto_intact, by decide⟩

theorem witness_GrpShowSymbolEffect :
    Intact lively ∧ Intact livelyAuto ∧ livelyAuto.cfg.groups[0]? = some ⟨0, 4⟩ ∧ 0 ≤ 4 ∧ 4 ≤ 4 :=
  ⟨lively_intact, livelyAuto_intact, by decide⟩

theorem witness_GrpChaseEffect :
    Intact lively ∧ Intact livelyAuto ∧ livelyAuto.cfg.groups[0]? = some ⟨0, 4⟩ ∧ 5 < 6 ∧ 7 < 8 :=
  ⟨lively_intact, livelyAuto_intact, by decide⟩

/-- GrpChaseStepEffect: both counters at their last value, so that both wrap. -/
theorem witness_GrpChaseStepEffect :
    Intact lively ∧ Intact livelyAuto ∧ livelyAuto.cfg.groups[0]? = some ⟨0, 4⟩ ∧ livelyAuto.chase[0]? = some ⟨5, 7⟩ :=
  ⟨lively_intact, livelyAuto_intact, by decide⟩

/-- The button statements: the one unit of each kind there is. -/
theorem witness_TglPollEffect :
    Intact lively ∧ Intact livelyAuto ∧ livelyAuto.cfg.toggles[0]? = some 2 ∧
    livelyAuto.toggles[0]? = some ⟨true, false, true⟩ := ⟨lively_intact, livelyAuto_intact, by decide⟩

/-- NlPollEffect: the state at its last value, so that an edge would wrap it. -/
theorem witness_NlPollEffect :
    Intact lively ∧ Intact livelyAuto ∧ livelyAuto.cfg.noLamps[0]? = some ⟨1, 3⟩ ∧
    livelyAuto.noLamps[0]? = some ⟨2, true, true⟩ := ⟨lively_intact, livelyAuto_intact, by decide⟩

theorem witness_ConsumeEventEffect :
    lively.cfg.toggles[0]? = some 2 ∧ lively.toggles[0]? = some ⟨true, false, true⟩ ∧
    lively.cfg.noLamps[0]? = some ⟨1, 3⟩ ∧ lively.noLamps[0]? = some ⟨2, true, true⟩ := by decide

theorem witness_ButtonGetterResults :
    lively.cfg.toggles[0]? = some 2 ∧ lively.toggles[0]? = some ⟨true, false, true⟩ ∧
    lively.cfg.selects[0]? = some ⟨2, 3, false⟩ ∧ lively.selects[0]? = some (some 2) ∧
    (boot small [] [] [] [] []).selects[0]? = some none ∧
    lively.cfg.noLamps[0]? = some ⟨1, 3⟩ ∧ lively.noLamps[0]? = some ⟨2, true, true⟩ := by decide

theorem witness_SelPollEffect :
    Intact lively ∧ Intact livelyAuto ∧ livelyAuto.cfg.selects[0]? = some ⟨2, 3, false⟩ ∧
    livelyAuto.selects[0]? = some (some 2) := ⟨lively_intact, livelyAuto_intact, by decide⟩

/-- SelSetStateEffect: the last index of the range, and RESET. -/
theorem witness_SelSetStateEffect :
    lively.cfg.selects[0]? = some ⟨2, 3, false⟩ ∧ lively.selects[0]? = some (some 2) ∧ (2 = 0xFFFF ∨ 2 < 3) ∧
    (0xFFFF = 0xFFFF ∨ 0xFFFF < 3) := by decide

/-- StatReadResult and StatClearEffect: an illegal form of each, on a state that can take it. -/
theorem witness_StatReadResult :
    Intact lively ∧ lively.cfg.debugOorNotify = false ∧ lively.cfg.legal = true ∧ lively.halted = false ∧
    { lively with host := [0x7000000000000001] }.host = 0x7000000000000001 :: [] ∧
    (0x7000000000000001 : CmdWord).extractLsb' 56 8 = 0x70 ∧ (0x7000000000000001 : CmdWord) ≠ 0x7000000000000000 :=
  ⟨lively_intact, by decide⟩

theorem witness_StatClearEffect :
    lively.cfg.legal = true ∧ lively.halted = false ∧
    { lively with host := [0x7100000000000001] }.host = 0x7100000000000001 :: [] ∧
    (0x7100000000000001 : CmdWord).extractLsb' 56 8 = 0x71 ∧ (0x7100000000000001 : CmdWord) ≠ 0x7100000000000000 ∧
    Instr.statRead ≠ .statClear ∧ (seen (exec .statRead lively) (·.outcome)) = some (some .complete) ∧
    lively.status.getLsbD 0 = true := by decide

end Sys2Proof.Tests
end

section
/-! What construction fixes for good (00_scope.md R7, R8; 10_state.md R28, R29, R40): a step leaves it as it is, and a
state whose configuration is illegal takes no step. -/

namespace Sys2Proof.Machine

/-! ### One step -/

/-- R8: the check on the configuration comes before every other. -/
theorem step_of_not_legal {s : State} (h : s.cfg.legal = false) : step s = .refused .illegalConfiguration := by
  simp [step, h]

/-- Everything a step that answers a next state can be: the idle wait (R315), or the word taken from a running machine
and refused by the decoder (R302) or executed (R96). -/
theorem step_next_cases {s t : State} (h : step s = .next t) :
    s.cfg.legal = true ∧ s.halted = false ∧
    ((s.host = [] ∧ t = s) ∨
      ∃ w rest, s.host = w :: rest ∧
        ((∃ info, decode w = .error info ∧ t = ({ s with host := rest } : State).illegal info) ∨
          ∃ i, decode w = .ok i ∧ exec i { s with host := rest } = .next t)) := by
  cases hl : s.cfg.legal with
  | false => simp [step_of_not_legal hl] at h
  | true =>
    cases hh : s.halted with
    | true => simp [step, hl, hh] at h
    | false =>
      refine ⟨rfl, rfl, ?_⟩
      cases hw : s.host with
      | nil =>
        simp only [step, hl, hh, State.takeCommand, hw] at h
        cases h
        exact .inl ⟨rfl, rfl⟩
      | cons w rest =>
        refine .inr ⟨w, rest, rfl, ?_⟩
        cases hd : decode w with
        | error info =>
          simp only [step, hl, hh, State.takeCommand, hw, hd] at h
          cases h
          exact .inl ⟨info, rfl, rfl⟩
        | ok i =>
          simp only [step, hl, hh, State.takeCommand, hw, hd] at h
          exact .inr ⟨i, rfl, h⟩

/-! ### What construction fixes -/

/-- The configuration (R7), `halted` (R40), the read-only control registers (R29) and the addresses of each buffer
(R28). -/
structure FixedPart where
  cfg : Config
  halted : Bool
  pixCfg : Word
  ioCfg : Word
  inCfg : Word
  digCfg : Word
  pix : List Nat
  ioOut : List Nat
  ioIn : List Nat
  inBuf : List Nat
  dig : List Nat

/-- The part of a state that construction fixes. -/
def State.fixed (s : State) : FixedPart where
  cfg := s.cfg
  halted := s.halted
  pixCfg := s.pixCfg
  ioCfg := s.ioCfg
  inCfg := s.inCfg
  digCfg := s.digCfg
  pix := s.pix.addrs
  ioOut := s.ioOut.addrs
  ioIn := s.ioIn.addrs
  inBuf := s.inBuf.addrs
  dig := s.dig.addrs

theorem State.fixed_eq_iff (s t : State) :
    t.fixed = s.fixed ↔
      t.cfg = s.cfg ∧ t.halted = s.halted ∧ t.pixCfg = s.pixCfg ∧ t.ioCfg = s.ioCfg ∧ t.inCfg = s.inCfg ∧
      t.digCfg = s.digCfg ∧ t.pix.addrs = s.pix.addrs ∧ t.ioOut.addrs = s.ioOut.addrs ∧
      t.ioIn.addrs = s.ioIn.addrs ∧ t.inBuf.addrs = s.inBuf.addrs ∧ t.dig.addrs = s.dig.addrs := by
  simp only [State.fixed, FixedPart.mk.injEq]

/-! Outcomes -/

@[simp] theorem State.completed_fixed (s : State) (v : Word) : (s.completed v).fixed = s.fixed := rfl
@[simp] theorem State.rejected_fixed (s : State) : s.rejected.fixed = s.fixed := rfl
@[simp] theorem State.illegal_fixed (s : State) (info : IllegalInfo) : (s.illegal info).fixed = s.fixed := rfl

/-! Named writes: a buffer's new contents must list the addresses of the old -/

@[simp] theorem State.setPix_fixed (s : State) (m : Memory) (h : m.addrs = s.pix.addrs) :
    (s.setPix m).fixed = s.fixed := by simp [State.fixed, h]
@[simp] theorem State.setIoOut_fixed (s : State) (m : Memory) (h : m.addrs = s.ioOut.addrs) :
    (s.setIoOut m).fixed = s.fixed := by simp [State.fixed, h]
@[simp] theorem State.setDig_fixed (s : State) (m : Memory) (h : m.addrs = s.dig.addrs) :
    (s.setDig m).fixed = s.fixed := by simp [State.fixed, h]
@[simp] theorem State.setLampBit_fixed (s : State) (k : Nat) (v : Bool) : (s.setLampBit k v).fixed = s.fixed := by
  simp [State.fixed]
@[simp] theorem State.selLamps_fixed (s : State) (sc : SelectCfg) (st : Option Nat) :
    (s.selLamps sc st).fixed = s.fixed :=
  foldl_keep _ State.fixed (fun s i => State.setLampBit_fixed s (sc.offset + i) (selLamp sc st i)) _ _
@[simp] theorem State.setToggle_fixed (s : State) (u : Nat) (t : ToggleState) : (s.setToggle u t).fixed = s.fixed := rfl
@[simp] theorem State.setSelect_fixed (s : State) (u : Nat) (st : Option Nat) : (s.setSelect u st).fixed = s.fixed := rfl
@[simp] theorem State.setNoLamp_fixed (s : State) (u : Nat) (t : NoLampState) : (s.setNoLamp u t).fixed = s.fixed := rfl
@[simp] theorem State.setChase_fixed (s : State) (g : Nat) (c : ChaseState) : (s.setChase g c).fixed = s.fixed := rfl

/-! Transactions -/

@[simp] theorem State.pixTransmit_fixed (s : State) : s.pixTransmit.fixed = s.fixed := by simp [State.fixed]
@[simp] theorem State.pixAutoTail_fixed (s : State) : s.pixAutoTail.fixed = s.fixed := by simp [State.fixed]
@[simp] theorem State.digTransmit_fixed (s : State) : s.digTransmit.fixed = s.fixed := by simp [State.fixed]
@[simp] theorem State.digAutoTail_fixed (s : State) : s.digAutoTail.fixed = s.fixed := by simp [State.fixed]
@[simp] theorem State.ioTransact_fixed (s : State) : s.ioTransact.fixed = s.fixed := by simp [State.fixed]
@[simp] theorem State.ioAutoPre_fixed (s : State) : s.ioAutoPre.fixed = s.fixed := by simp [State.fixed]
@[simp] theorem State.ioAutoPost_fixed (s : State) : s.ioAutoPost.fixed = s.fixed := by simp [State.fixed]
@[simp] theorem State.inTransact_fixed (s : State) : s.inTransact.fixed = s.fixed := by simp [State.fixed]
@[simp] theorem State.inAutoPre_fixed (s : State) : s.inAutoPre.fixed = s.fixed := by simp [State.fixed]

/-! ### Answers that leave it as it is -/

/-- If the answer is a next state, that state has the fixed part of `s`. -/
def KeepsFixed (s : State) (a : Answer) : Prop := ∀ t, a = .next t → t.fixed = s.fixed

@[simp] theorem keepsFixed_next (s t : State) : KeepsFixed s (.next t) ↔ t.fixed = s.fixed := by
  simp [KeepsFixed]

theorem keepsFixed_ite {s : State} {p : Prop} [Decidable p] {a b : Answer} (ha : KeepsFixed s a) (hb : KeepsFixed s b) :
    KeepsFixed s (if p then a else b) := by
  split
  · exact ha
  · exact hb

/-- A command that is rejected on some of its arguments keeps the fixed part if it does where it is accepted. -/
theorem keepsFixed_rejectIf {s : State} {p : Prop} [Decidable p] {a : Answer} (ha : KeepsFixed s a) :
    KeepsFixed s (if p then .next s.rejected else a) := keepsFixed_ite (by simp) ha

/-! A UNIT number either is in range, and the unit's command answers, or makes the command illegal (R92) -/

theorem keepsFixed_withGroup {g : Nat} {s : State} {f : GroupCfg → ChaseState → Answer}
    (h : ∀ gc ch, KeepsFixed s (f gc ch)) : KeepsFixed s (withGroup g s f) := by
  unfold withGroup
  split
  · exact h _ _
  · simp

theorem keepsFixed_withToggle {u : Nat} {s : State} {f : Nat → ToggleState → Answer}
    (h : ∀ k t, KeepsFixed s (f k t)) : KeepsFixed s (withToggle u s f) := by
  unfold withToggle
  split
  · exact h _ _
  · simp

theorem keepsFixed_withSelect {u : Nat} {s : State} {f : SelectCfg → Option Nat → Answer}
    (h : ∀ sc st, KeepsFixed s (f sc st)) : KeepsFixed s (withSelect u s f) := by
  unfold withSelect
  split
  · exact h _ _
  · simp

theorem keepsFixed_withNoLamp {u : Nat} {s : State} {f : NoLampCfg → NoLampState → Answer}
    (h : ∀ nc t, KeepsFixed s (f nc t)) : KeepsFixed s (withNoLamp u s f) := by
  unfold withNoLamp
  split
  · exact h _ _
  · simp

/-- No command, completed, rejected or illegal, changes what construction fixes. -/
theorem exec_keepsFixed (i : Instr) (s : State) : KeepsFixed s (exec i s) := by
  cases i with
  -- pixel unit
  | pixSetPixel i c => exact keepsFixed_rejectIf (by simp)
  | pixSetAll c => simp [exec, execPixSetAll]
  | pixFillRaw v => simp [exec, execPixFillRaw]
  | pixSetOrder m => exact keepsFixed_ite ((keepsFixed_next _ _).mpr rfl) (by simp)
  | pixTransmit => simp [exec, execPixTransmit]
  | pixGetPixel i => exact keepsFixed_rejectIf (by simp)
  -- I/O boards
  | ioSetLamp k v => exact keepsFixed_rejectIf (by simp)
  | ioSetLampAll v => simp [exec, execIoSetLampAll]
  | ioGetButton k => exact keepsFixed_rejectIf (by simp)
  | ioCountPressed => simp [exec, execIoCountPressed]
  | ioCountPressedRange o n => simp [exec, execIoCountPressedRange]
  | ioRawWrite b v => exact keepsFixed_rejectIf (by simp)
  | ioRawRead b => exact keepsFixed_rejectIf (by simp)
  | ioTransact => simp [exec, execIoTransact]
  | ioGetLamp k => exact keepsFixed_rejectIf (by simp)
  -- input chain
  | inTransact => simp [exec, execInTransact]
  | inReadBit k => exact keepsFixed_rejectIf (by simp)
  | inReadByte b => exact keepsFixed_rejectIf (by simp)
  -- digit chain
  | digSetDigit p d dp => exact keepsFixed_rejectIf (by simp)
  | digCopySection f t n => exact keepsFixed_rejectIf (keepsFixed_rejectIf (by simp))
  | digTransmit => simp [exec, execDigTransmit]
  | digGetRaw p => exact keepsFixed_rejectIf (by simp)
  -- digit groups
  | grpShowNumber g dpPos v => exact keepsFixed_withGroup fun gc ch => by simp
  | grpShowSigned g dpPos v => exact keepsFixed_withGroup fun gc ch => by simp
  | grpShowSymbol g k => exact keepsFixed_withGroup fun gc ch => keepsFixed_rejectIf (by simp)
  | grpChase6 g q =>
    refine keepsFixed_withGroup fun gc ch => ?_
    split <;> simp
  | grpChase6Step g => exact keepsFixed_withGroup fun gc ch => by simp
  | grpChase8 g q =>
    refine keepsFixed_withGroup fun gc ch => ?_
    split <;> simp
  | grpChase8Step g => exact keepsFixed_withGroup fun gc ch => by simp
  -- button machines
  | tglPoll u => exact keepsFixed_withToggle fun k t => by simp
  | tglConsumeEvent u => exact keepsFixed_withToggle fun k t => by simp
  | tglGetState u => exact keepsFixed_withToggle fun k t => by simp
  | selPoll u => exact keepsFixed_withSelect fun sc st => by simp
  | selGetState u => exact keepsFixed_withSelect fun sc st => by simp
  | selSetState u st =>
    exact keepsFixed_withSelect fun sc _ => keepsFixed_ite (by simp) (keepsFixed_ite (by simp) (by simp))
  | nlPoll u => exact keepsFixed_withNoLamp fun nc t => by simp
  | nlConsumeEvent u => exact keepsFixed_withNoLamp fun nc t => by simp
  | nlGetState u => exact keepsFixed_withNoLamp fun nc t => by simp
  -- status unit
  | statRead => simp [exec, execStatRead]
  | statClear => exact (keepsFixed_next _ _).mpr rfl

/-- No step changes what construction fixes: taking a word, refusing it and executing it all leave it as it is. -/
theorem step_keepsFixed (s : State) : KeepsFixed s (step s) := by
  intro t h
  obtain ⟨_, _, ⟨_, rfl⟩ | ⟨w, rest, _, ⟨info, _, rfl⟩ | ⟨i, _, hx⟩⟩⟩ := step_next_cases h
  · rfl
  · rfl
  · exact exec_keepsFixed i { s with host := rest } t hx

end Sys2Proof.Machine

/-! ### The obligations -/

/-- Settles O14: the check on the configuration comes first. -/
theorem illegalConfigurationRefused : Obligations.IllegalConfigurationRefused :=
  fun _ h => Sys2Proof.Machine.step_of_not_legal h

/-- Settles O19, by cases on what a step can be and then on the command. -/
theorem configurationNeverChanges : Obligations.ConfigurationNeverChanges :=
  fun s t h => (Sys2Proof.Machine.State.fixed_eq_iff s t).mp (Sys2Proof.Machine.step_keepsFixed s t h)
end

section
/-! What a command can do, said once (60_exceptions.md R300; 10_state.md): every command is rejected, illegal for its
UNIT number, or completes after work that changes only the parts its write list names and keeps an intact machine intact. The
write lists, the sticky STATUS bits and the invariant of a constructed machine all follow from it. -/

namespace Sys2Proof.Machine

open Sys2Proof.Safety

/-! ### Construction (10_state.md R45, 70_reset_and_hazards.md R331) -/

theorem allocFails_iff (c : Config) :
    allocFails c = true ↔ 3 * c.npix + 2 * c.nbIo + c.nbIn + c.ndig > c.maxBufBytes :=
  decide_eq_true_iff

/-- A byte that a new buffer lists reads as its reset draw. -/
theorem Memory.getD_read?_buffer {n a : Nat} (draw : Nat → Byte) (d : Byte) (h : a < n) :
    ((Memory.buffer n draw).read? a).getD d = draw a := by
  simp [Memory.read?_buffer, h]

/-- A list of as many units as the configuration names, each at its reset value, holds that value in every place. -/
theorem getElem?_map_const_of_lt {α β : Type} {l : List α} (b : β) {u : Nat} (h : u < l.length) :
    (l.map fun _ => b)[u]? = some b := by
  simp [h]

/-- An inactive latch line is high exactly where its active level is low (20_memory.md R72). -/
theorem not_activeHigh (p : LatchPol) : (!(p == .activeHigh)) = (p == .activeLow) := by
  cases p <;> rfl

theorem colorOrderReset_legal : colorOrderReset ∈ legalLaneMaps := by decide

theorem Pins.atReset_isIdle (p : LatchPols) : (Pins.atReset p).isIdle p = true := by
  simp [Pins.isIdle, Pins.atReset]

/-- Whatever a unit list right after construction holds is the reset value. -/
theorem getElem?_map_const {α β : Type} {l : List α} {b x : β} {u : Nat}
    (h : (l.map fun _ => b)[u]? = some x) : x = b := by
  obtain ⟨_, _, hx⟩ := Option.map_eq_some_iff.mp (List.getElem?_map.symm.trans h)
  exact hx.symm

/-- The least a no-lamp toggle of a legal configuration has is one state (00_scope.md R7). -/
theorem noLamp_states_pos {c : Config} (h : c.legal = true) {u : Nat} {nc : NoLampCfg}
    (hu : c.noLamps[u]? = some nc) : 0 < nc.states := by
  have hall : c.noLamps.all (NoLampCfg.legal c) = true := by
    simp only [Config.legal, Config.unitsLegal, Bool.and_eq_true] at h
    obtain ⟨⟨_, _, hall⟩, _⟩ := h
    exact hall
  have hnc := List.all_eq_true.mp hall nc (List.mem_of_getElem? hu)
  simp only [NoLampCfg.legal, decide_eq_true_eq] at hnc
  omega

/-- Construction establishes the invariant (R331, R45). -/
theorem State.construct_intact (c : Config) (draw : Space → Nat → Byte) (h : c.legal = true) :
    Intact (State.construct c draw) where
  legal := h
  halted := rfl
  pix := Memory.addrs_buffer _ _
  ioOut := Memory.addrs_buffer _ _
  ioIn := Memory.addrs_buffer _ _
  inBuf := Memory.addrs_buffer _ _
  dig := Memory.addrs_buffer _ _
  pixCfg := rfl
  ioCfg := rfl
  inCfg := rfl
  digCfg := rfl
  order := colorOrderReset_legal
  statusReserved := BitVec.zero_and
  statusOor := fun _ => BitVec.getLsbD_zero
  chase := List.length_map _
  toggles := List.length_map _
  selects := List.length_map _
  selectRange := fun _ _ _ _ hu => nomatch getElem?_map_const hu
  noLamps := List.length_map _
  noLampRange := fun _ _ _ hc hu => by
    rw [getElem?_map_const hu]
    exact noLamp_states_pos h hc
  pins := Pins.atReset_isIdle _

/-! ### What each update changes -/

theorem State.setPix_frame (s : State) (m : Memory) : Frame [.pix] s (s.setPix m) := by
  intro p hp
  cases p <;> simp [agree] at hp ⊢

theorem State.setIoOut_frame (s : State) (m : Memory) : Frame [.ioOut] s (s.setIoOut m) := by
  intro p hp
  cases p <;> simp [agree] at hp ⊢

theorem State.setDig_frame (s : State) (m : Memory) : Frame [.dig] s (s.setDig m) := by
  intro p hp
  cases p <;> simp [agree] at hp ⊢

theorem State.setLampBit_frame (s : State) (k : Nat) (v : Bool) : Frame [.ioOut] s (s.setLampBit k v) := by
  intro p hp
  cases p <;> simp [agree] at hp ⊢

theorem State.selLamps_frame (s : State) (sc : SelectCfg) (st : Option Nat) : Frame [.ioOut] s (s.selLamps sc st) := by
  intro p hp
  cases p <;> simp [agree] at hp ⊢

theorem State.setToggle_frame (s : State) (u : Nat) (t : ToggleState) : Frame [.toggles] s (s.setToggle u t) := by
  intro p hp
  cases p <;> simp [agree] at hp ⊢

theorem State.setSelect_frame (s : State) (u : Nat) (st : Option Nat) : Frame [.selects] s (s.setSelect u st) := by
  intro p hp
  cases p <;> simp [agree] at hp ⊢

theorem State.setNoLamp_frame (s : State) (u : Nat) (t : NoLampState) : Frame [.noLamps] s (s.setNoLamp u t) := by
  intro p hp
  cases p <;> simp [agree] at hp ⊢

theorem State.setChase_frame (s : State) (g : Nat) (c : ChaseState) : Frame [.chase] s (s.setChase g c) := by
  intro p hp
  cases p <;> simp [agree] at hp ⊢

theorem State.pixTransmit_frame (s : State) : Frame [.wire] s s.pixTransmit := by
  intro p hp
  cases p <;> simp [agree] at hp ⊢

theorem State.digTransmit_frame (s : State) : Frame [.wire] s s.digTransmit := by
  intro p hp
  cases p <;> simp [agree] at hp ⊢

/-- A rejected call sets RESULT, the label and at most STATUS (60_exceptions.md R301). -/
theorem State.rejected_frame (s : State) : Frame [.port, .status] s s.rejected := by
  intro p hp
  cases p <;> simp [agree] at hp ⊢

/-- An illegal command sets RESULT, the label and STATUS (R302). -/
theorem State.illegal_frame (s : State) (info : IllegalInfo) : Frame [.port, .status] s (s.illegal info) := by
  intro p hp
  cases p <;> simp [agree] at hp ⊢

/-! ### What keeps a machine intact -/

/-- The parts a command may change freely as long as the buffers keep their addresses and the pins come back to their
idle levels: the buffers, the wire, the port and what the environment presents. -/
def freeParts : List Part := [.pix, .ioOut, .ioIn, .inBuf, .dig, .wire, .port, .ioPins, .inPins, .host]

/-- Beyond what construction fixes, the invariant speaks of COLOR_ORDER, STATUS, the unit state and the pins alone. -/
theorem intact_of_freeParts {s t : State} (hs : Intact s) (hfix : t.fixed = s.fixed) (hfr : Frame freeParts s t)
    (hp : t.pins.isIdle s.cfg.latchPol = true) : Intact t := by
  obtain ⟨hcfg, hhalted, hpixCfg, hioCfg, hinCfg, hdigCfg, hpix, hioOut, hioIn, hinBuf, hdig⟩ :=
    (State.fixed_eq_iff s t).mp hfix
  have horder : t.colorOrder = s.colorOrder := hfr .colorOrder (by decide)
  have hstatus : t.status = s.status := hfr .status (by decide)
  have hchase : t.chase = s.chase := hfr .chase (by decide)
  have htoggles : t.toggles = s.toggles := hfr .toggles (by decide)
  have hselects : t.selects = s.selects := hfr .selects (by decide)
  have hnoLamps : t.noLamps = s.noLamps := hfr .noLamps (by decide)
  constructor <;> simp only [hcfg, hhalted, hpixCfg, hioCfg, hinCfg, hdigCfg, hpix, hioOut, hioIn, hinBuf, hdig, horder,
    hstatus, hchase, htoggles, hselects, hnoLamps]
  exacts [hs.legal, hs.halted, hs.pix, hs.ioOut, hs.ioIn, hs.inBuf, hs.dig, hs.pixCfg, hs.ioCfg, hs.inCfg, hs.digCfg,
    hs.order, hs.statusReserved, hs.statusOor, hs.chase, hs.toggles, hs.selects, hs.selectRange, hs.noLamps,
    hs.noLampRange, hp]

/-! The reserved bits of STATUS stay 0 (10_state.md R35) -/

theorem setIllegal_reserved {st : Word} (h : st &&& 0xFFFFFFFC = 0) : setIllegal st &&& 0xFFFFFFFC = 0 := by
  rw [setIllegal, BitVec.and_or_distrib_right, h]; rfl

theorem setOor_reserved (c : Config) {st : Word} (h : st &&& 0xFFFFFFFC = 0) : setOor c st &&& 0xFFFFFFFC = 0 := by
  unfold setOor
  split
  · rw [BitVec.and_or_distrib_right, h]; rfl
  · exact h

/-- A STATUS whose reserved bits are 0 has both its flags cleared by STAT_CLEAR (46_status.md R281). -/
theorem clearFlags_eq_zero {st : Word} (h : st &&& 0xFFFFFFFC = 0) : clearFlags st = 0 := h

/-- The port is free, and STATUS is where its reserved bits and a hardwired OOR stay 0 (R35, R44). -/
theorem intact_of_status {s : State} (hs : Intact s) (v : Word) (o : Option CmdOutcome) (st : Word)
    (hr : st &&& 0xFFFFFFFC = 0) (ho : s.cfg.debugOorNotify = false → st.getLsbD 1 = false) :
    Intact { s with result := v, outcome := o, status := st } :=
  { hs with statusReserved := hr, statusOor := ho }

theorem intact_completed {s : State} (hs : Intact s) (v : Word) : Intact (s.completed v) :=
  intact_of_status hs v (some .complete) s.status hs.statusReserved hs.statusOor

/-- A rejected call sets OOR only where DEBUG_OOR_NOTIFY = 1 (R301). -/
theorem intact_rejected {s : State} (hs : Intact s) : Intact s.rejected :=
  intact_of_status hs 0 (some .rejected) (setOor s.cfg s.status) (setOor_reserved _ hs.statusReserved)
    fun h => by simpa [setOor, h] using hs.statusOor h

/-- An illegal command leaves OOR as it is (R302). -/
theorem intact_illegal {s : State} (hs : Intact s) (info : IllegalInfo) : Intact (s.illegal info) :=
  intact_of_status hs 0 (some (.illegal info)) (setIllegal s.status) (setIllegal_reserved hs.statusReserved)
    fun h => by rw [setIllegal, BitVec.getLsbD_or, hs.statusOor h]; rfl

/-! ### Work: what a command does before it completes -/

/-- From `s` to `m` only the parts `l` changed, and an intact machine stayed intact. -/
structure Work (l : List Part) (s m : State) : Prop where
  frame : Frame l s m
  intact : Intact s → Intact m

theorem Work.refl (l : List Part) (s : State) : Work l s s := ⟨frame_refl l s, id⟩

theorem Work.trans {l l' : List Part} {s m m' : State} (h : Work l s m) (h' : Work l' m m') : Work (l ++ l') s m' :=
  ⟨frame_trans h.frame h'.frame, h'.intact ∘ h.intact⟩

theorem Work.mono {l l' : List Part} {s m : State} (h : Work l s m) (hl : ∀ p ∈ l, p ∈ l') : Work l' s m :=
  ⟨frame_mono h.frame hl, h.intact⟩

/-- A write of one buffer that keeps its addresses drives no pin. -/
theorem Work.ofBuffer {p : Part} {s m : State} (hfr : Frame [p] s m) (hp : p ∈ freeParts) (hw : Part.wire ∉ [p])
    (hfix : m.fixed = s.fixed) : Work [p] s m := by
  refine ⟨hfr, fun hs => intact_of_freeParts hs hfix (frame_mono hfr fun q hq => ?_) ?_⟩
  · rwa [List.mem_singleton.mp hq]
  · obtain ⟨_, hpins⟩ : agree .wire s m := hfr .wire hw
    rw [hpins]
    exact hs.pins

/-- A transaction: events that leave the pins idle, and what it stores (20_memory.md R77). -/
theorem Work.ofEvents {l : List Part} {s m : State} {es : List Event} (hfr : Frame l s m) (hl : ∀ p ∈ l, p ∈ freeParts)
    (hfix : m.fixed = s.fixed) (hw : Intact s → Wired s m es)
    (hes : ∀ p : Pins, p.isIdle s.cfg.latchPol = true →
      (es.foldl (Pins.drive s.cfg.latchPol) p).isIdle s.cfg.latchPol = true) : Work l s m :=
  ⟨hfr, fun hs => intact_of_freeParts hs hfix (frame_mono hfr hl) (by rw [(hw hs).2]; exact hes _ hs.pins)⟩

/-! Buffer writes -/

theorem State.setPix_work {s : State} {m : Memory} (h : m.addrs = s.pix.addrs) : Work [.pix] s (s.setPix m) :=
  .ofBuffer (s.setPix_frame m) (by decide) (by decide) (s.setPix_fixed m h)

theorem State.setIoOut_work {s : State} {m : Memory} (h : m.addrs = s.ioOut.addrs) : Work [.ioOut] s (s.setIoOut m) :=
  .ofBuffer (s.setIoOut_frame m) (by decide) (by decide) (s.setIoOut_fixed m h)

theorem State.setDig_work {s : State} {m : Memory} (h : m.addrs = s.dig.addrs) : Work [.dig] s (s.setDig m) :=
  .ofBuffer (s.setDig_frame m) (by decide) (by decide) (s.setDig_fixed m h)

theorem State.setLampBit_work (s : State) (k : Nat) (v : Bool) : Work [.ioOut] s (s.setLampBit k v) :=
  .ofBuffer (s.setLampBit_frame k v) (by decide) (by decide) (s.setLampBit_fixed k v)

theorem State.selLamps_work (s : State) (sc : SelectCfg) (st : Option Nat) : Work [.ioOut] s (s.selLamps sc st) :=
  .ofBuffer (s.selLamps_frame sc st) (by decide) (by decide) (s.selLamps_fixed sc st)

/-! Transactions, and those an auto unit runs by itself -/

theorem State.pixTransmit_work (s : State) : Work [.wire] s s.pixTransmit :=
  .ofEvents s.pixTransmit_frame (by decide) s.pixTransmit_fixed
    (fun hs => s.pixTransmit_grew.wired (s.pixTransmit_trace (groupSize_of_intact hs))) (pixFrameEvents_idle s)

theorem State.digTransmit_work (s : State) : Work [.wire] s s.digTransmit :=
  .ofEvents s.digTransmit_frame (by decide) s.digTransmit_fixed
    (fun _ => s.digTransmit_grew.wired s.digTransmit_trace) (digFrameEvents_idle s)

theorem State.ioTransact_work (s : State) : Work ioTransactParts s s.ioTransact :=
  .ofEvents s.ioTransact_frame (by decide) s.ioTransact_fixed
    (fun _ => s.ioTransact_grew.wired s.ioTransact_trace) (ioTransactEvents_idle s)

theorem State.inTransact_work (s : State) : Work [.inBuf, .wire, .inPins] s s.inTransact :=
  .ofEvents s.inTransact_frame (by decide) s.inTransact_fixed
    (fun _ => s.inTransact_grew.wired s.inTransact_trace) (inTransactEvents_idle s)

theorem State.pixAutoTail_work (s : State) : Work (pixAutoParts s) s s.pixAutoTail := by
  unfold pixAutoParts State.pixAutoTail
  split
  · exact s.pixTransmit_work
  · exact .refl _ _

theorem State.digAutoTail_work (s : State) : Work (digAutoParts s) s s.digAutoTail := by
  unfold digAutoParts State.digAutoTail
  split
  · exact s.digTransmit_work
  · exact .refl _ _

theorem State.ioAutoPre_work (s : State) : Work (ioAutoParts s) s s.ioAutoPre := by
  unfold ioAutoParts State.ioAutoPre
  split
  · exact s.ioTransact_work
  · exact .refl _ _

/-- The transaction after a lamp write is the one before a read, at another time (42_ioboard.md R170). -/
theorem State.ioAutoPost_work (s : State) : Work (ioAutoParts s) s s.ioAutoPost := s.ioAutoPre_work

theorem State.inAutoPre_work (s : State) : Work (inAutoParts s) s s.inAutoPre := by
  unfold inAutoParts State.inAutoPre
  split
  · exact s.inTransact_work
  · exact .refl _ _

/-! A buffer write and its unit's transaction -/

theorem pixWrite_work {s : State} {m : Memory} (h : m.addrs = s.pix.addrs) :
    Work ([.pix] ++ pixAutoParts s) s (s.setPix m).pixAutoTail :=
  (State.setPix_work h).trans (s.setPix m).pixAutoTail_work

theorem ioOutWrite_work {s : State} {m : Memory} (h : m.addrs = s.ioOut.addrs) :
    Work ([.ioOut] ++ ioAutoParts s) s (s.setIoOut m).ioAutoPost :=
  (State.setIoOut_work h).trans (s.setIoOut m).ioAutoPost_work

theorem lampWrite_work (s : State) (k : Nat) (v : Bool) :
    Work ([.ioOut] ++ ioAutoParts s) s (s.setLampBit k v).ioAutoPost :=
  (s.setLampBit_work k v).trans (s.setLampBit k v).ioAutoPost_work

theorem digWrite_work {s : State} {m : Memory} (h : m.addrs = s.dig.addrs) :
    Work ([.dig] ++ digAutoParts s) s (s.setDig m).digAutoTail :=
  (State.setDig_work h).trans (s.setDig m).digAutoTail_work

/-- A poll with a lamp writes a unit's state and its lamps between two transactions, both of them run or neither
(45_buttons.md R252, R257). -/
theorem poll_work {p : Part} {s m m' : State} (hunit : Work [p] s.ioAutoPre m) (hlamp : Work [.ioOut] m m')
    (hcfg : m'.ioCfg = s.ioCfg) : Work ([p, .ioOut] ++ ioAutoParts s) s m'.ioAutoPost := by
  have hparts : ioAutoParts m' = ioAutoParts s := by rw [ioAutoParts, ioAutoParts, State.ioAuto, State.ioAuto, hcfg]
  have hpost := m'.ioAutoPost_work
  rw [hparts] at hpost
  refine (((s.ioAutoPre_work.trans hunit).trans hlamp).trans hpost).mono fun q hq => ?_
  simp only [List.mem_append, List.mem_cons] at hq ⊢
  tauto

/-! Unit state: its lists keep their lengths, and its values their ranges (10_state.md R36-R39) -/

theorem State.setChase_work (s : State) (g : Nat) (c : ChaseState) : Work [.chase] s (s.setChase g c) :=
  ⟨s.setChase_frame g c, fun hs => { hs with chase := (List.length_set ..).trans hs.chase }⟩

theorem State.setToggle_work (s : State) (u : Nat) (t : ToggleState) : Work [.toggles] s (s.setToggle u t) :=
  ⟨s.setToggle_frame u t, fun hs => { hs with toggles := (List.length_set ..).trans hs.toggles }⟩

/-- A chase step writes the group, then advances a counter (44_digits.md R230, R232). -/
theorem chaseStep_work {s : State} {m : Memory} (h : m.addrs = s.dig.addrs) (g : Nat) (c : ChaseState) :
    Work ([.dig, .chase] ++ digAutoParts s) s ((s.setDig m).setChase g c).digAutoTail :=
  ((State.setDig_work h).trans (State.setChase_work _ g c)).trans ((s.setDig m).setChase g c).digAutoTail_work

/-- A value found in a list after a write is the written one, at its place, or an old one. -/
theorem getElem?_set_cases {α : Type} {l : List α} {u v : Nat} {x y : α} (h : (l.set u x)[v]? = some y) :
    (u = v ∧ y = x) ∨ l[v]? = some y := by
  rw [List.getElem?_set] at h
  split at h
  · split at h
    · exact .inl ⟨‹_›, (Option.some.inj h).symm⟩
    · cases h
  · exact .inr h

theorem State.setSelect_work {s : State} {u : Nat} {st : Option Nat}
    (h : Intact s → ∀ sc i, s.cfg.selects[u]? = some sc → st = some i → i < sc.count) :
    Work [.selects] s (s.setSelect u st) := by
  refine ⟨s.setSelect_frame u st, fun hs => { hs with
    selects := (List.length_set ..).trans hs.selects
    selectRange := fun v sc i hc hv => ?_ }⟩
  obtain ⟨rfl, hi⟩ | hold := getElem?_set_cases hv
  · exact h hs sc i hc hi.symm
  · exact hs.selectRange v sc i hc hold

theorem State.setNoLamp_work {s : State} {u : Nat} {t : NoLampState}
    (h : Intact s → ∀ nc, s.cfg.noLamps[u]? = some nc → t.state < nc.states) :
    Work [.noLamps] s (s.setNoLamp u t) := by
  refine ⟨s.setNoLamp_frame u t, fun hs => { hs with
    noLamps := (List.length_set ..).trans hs.noLamps
    noLampRange := fun v nc t' hc hv => ?_ }⟩
  obtain ⟨rfl, rfl⟩ | hold := getElem?_set_cases hv
  · exact h hs nc hc
  · exact hs.noLampRange v nc t' hc hold

/-- A poll keeps a no-lamp toggle's state below NL_N (45_buttons.md R262). -/
theorem NoLampState.poll_state_lt {t : NoLampState} {n : Nat} (p : Bool) (h : t.state < n) :
    (t.poll n p).state < n := by
  unfold NoLampState.poll
  dsimp only
  split
  · exact Nat.mod_lt _ (by omega)
  · exact h

/-- A scan answers an index below SEL_COUNT (R256), so the selection after it is in range if the old one was (R257). -/
theorem selNext_selScan_lt {s : State} {sc : SelectCfg} {st : Option Nat} (h : ∀ i, st = some i → i < sc.count)
    (i : Nat) (hi : selNext (s.selScan sc) st = some i) : i < sc.count := by
  cases hf : s.selScan sc with
  | none => exact h i (by simpa [hf, selNext] using hi)
  | some j =>
    obtain rfl : j = i := by simpa [hf, selNext] using hi
    exact (((s.selScan_spec sc).1 j).mp hf).1

/-! Registers -/

/-- COLOR_ORDER takes a legal lane map only (10_state.md R31, 41_pixel.md R146). -/
theorem colorOrder_work (s : State) {m : Byte} (h : m ∈ legalLaneMaps) :
    Work [.colorOrder] s { s with colorOrder := m } := by
  refine ⟨fun p hp => ?_, fun hs => { hs with order := h }⟩
  cases p <;> simp [agree] at hp ⊢

theorem clearFlags_work (s : State) : Work [.status] s { s with status := clearFlags s.status } := by
  refine ⟨fun p hp => ?_, fun hs => ?_⟩
  · cases p <;> simp [agree] at hp ⊢
  · have h0 := clearFlags_eq_zero hs.statusReserved
    exact intact_of_status hs s.result s.outcome _ (by rw [h0]; rfl) (fun _ => by rw [h0]; rfl)

/-! ### The outcomes of a command (60_exceptions.md R300) -/

/-- What a command answers on `s`: it is rejected, its UNIT is out of range, or it completes after work
that meets `P`. -/
inductive Yields (s : State) (P : State → Prop) : Answer → Prop
  | rejected : Yields s P (.next s.rejected)
  | badUnit : Yields s P (.next (s.illegal .badUnit))
  | completed {m : State} {v : Word} (h : P m) : Yields s P (.next (m.completed v))

section
variable {s : State} {P : State → Prop}

theorem yields_rejectIf {p : Prop} [Decidable p] {a : Answer} (h : ¬ p → Yields s P a) :
    Yields s P (if p then .next s.rejected else a) := by
  split
  · exact .rejected
  · exact h ‹_›

theorem yields_rejectUnless {p : Prop} [Decidable p] {a : Answer} (h : p → Yields s P a) :
    Yields s P (if p then a else .next s.rejected) := by
  split
  · exact h ‹_›
  · exact .rejected

theorem yields_withGroup {g : Nat} {f : GroupCfg → ChaseState → Answer} (h : ∀ gc ch, Yields s P (f gc ch)) :
    Yields s P (withGroup g s f) := by
  unfold withGroup
  split
  · exact h _ _
  · exact .badUnit

theorem yields_withToggle {u : Nat} {f : Nat → ToggleState → Answer} (h : ∀ k t, Yields s P (f k t)) :
    Yields s P (withToggle u s f) := by
  unfold withToggle
  split
  · exact h _ _
  · exact .badUnit

theorem yields_withSelect {u : Nat} {f : SelectCfg → Option Nat → Answer}
    (h : ∀ sc st, s.cfg.selects[u]? = some sc → s.selects[u]? = some st → Yields s P (f sc st)) :
    Yields s P (withSelect u s f) := by
  unfold withSelect
  split
  · exact h _ _ ‹_› ‹_›
  · exact .badUnit

theorem yields_withNoLamp {u : Nat} {f : NoLampCfg → NoLampState → Answer}
    (h : ∀ nc t, s.cfg.noLamps[u]? = some nc → s.noLamps[u]? = some t → Yields s P (f nc t)) :
    Yields s P (withNoLamp u s f) := by
  unfold withNoLamp
  split
  · exact h _ _ ‹_› ‹_›
  · exact .badUnit

end

/-- What a command's own work may change: its write list without RESULT, the label and STATUS, which its outcome sets.
STAT_CLEAR alone writes STATUS itself. -/
def workParts (s : State) : Instr → List Part
  | .statClear => [.status]
  | i => (mayChange s i).drop 2

/-- The work's parts stand in the write list. -/
theorem mem_mayChange_of_mem_workParts {s : State} {i : Instr} {p : Part} (h : p ∈ workParts s i) :
    p ∈ mayChange s i := by
  unfold workParts at h
  split at h
  · exact List.mem_cons_of_mem _ h
  · exact List.mem_of_mem_drop h

/-- RESULT, the label and STATUS stand in every write list. -/
theorem outcome_mem_mayChange (s : State) (i : Instr) : ∀ p ∈ [Part.port, .status], p ∈ mayChange s i := by
  cases i <;> simp [mayChange]

theorem status_not_mem_workParts (s : State) {i : Instr} (h : i ≠ .statClear) : Part.status ∉ workParts s i := by
  cases i <;> simp [workParts, mayChange, pixAutoParts, ioAutoParts, inAutoParts, digAutoParts, ioTransactParts] at h ⊢

/-- Every command is rejected, illegal for its UNIT, or completes after work on the parts of its write list that keeps
an intact machine intact. -/
theorem exec_yields (i : Instr) (s : State) : Yields s (Work (workParts s i) s) (exec i s) := by
  cases i with
  -- pixel unit
  | pixSetPixel i c =>
    exact yields_rejectIf fun _ => .completed (pixWrite_work (by simp))
  | pixSetAll c => exact .completed (pixWrite_work (by simp))
  | pixFillRaw v => exact .completed (pixWrite_work (by simp))
  | pixSetOrder m => exact yields_rejectUnless fun h => .completed (colorOrder_work s h)
  | pixTransmit => exact .completed s.pixTransmit_work
  | pixGetPixel i => exact yields_rejectIf fun _ => .completed (.refl _ _)
  -- I/O boards
  | ioSetLamp k v => exact yields_rejectIf fun _ => .completed (lampWrite_work s k v)
  | ioSetLampAll v => exact .completed (ioOutWrite_work (by simp))
  | ioGetButton k => exact yields_rejectIf fun _ => .completed s.ioAutoPre_work
  | ioCountPressed => exact .completed s.ioAutoPre_work
  | ioCountPressedRange o n => exact .completed s.ioAutoPre_work
  | ioRawWrite b v =>
    exact yields_rejectIf fun _ => .completed (ioOutWrite_work (by simp))
  | ioRawRead b => exact yields_rejectIf fun _ => .completed s.ioAutoPre_work
  | ioTransact => exact .completed s.ioTransact_work
  | ioGetLamp k => exact yields_rejectIf fun _ => .completed (.refl _ _)
  -- input chain
  | inTransact => exact .completed s.inTransact_work
  | inReadBit k => exact yields_rejectIf fun _ => .completed s.inAutoPre_work
  | inReadByte b => exact yields_rejectIf fun _ => .completed s.inAutoPre_work
  -- digit chain
  | digSetDigit p d dp =>
    exact yields_rejectIf fun _ => .completed (digWrite_work (by simp))
  | digCopySection f t n =>
    exact yields_rejectIf fun _ => yields_rejectIf fun _ =>
      .completed (digWrite_work (by simp))
  | digTransmit => exact .completed s.digTransmit_work
  | digGetRaw p => exact yields_rejectIf fun _ => .completed (.refl _ _)
  -- digit groups
  | grpShowNumber g dpPos v =>
    exact yields_withGroup fun _ _ => .completed (digWrite_work (by simp))
  | grpShowSigned g dpPos v =>
    exact yields_withGroup fun _ _ => .completed (digWrite_work (by simp))
  | grpShowSymbol g k =>
    exact yields_withGroup fun _ _ => yields_rejectIf fun _ =>
      .completed (digWrite_work (by simp))
  | grpChase6 g q =>
    refine yields_withGroup fun _ _ => ?_
    split
    · exact .completed (digWrite_work (by simp))
    · exact .rejected
  | grpChase6Step g =>
    exact yields_withGroup fun _ _ =>
      .completed (chaseStep_work (by simp) _ _)
  | grpChase8 g q =>
    refine yields_withGroup fun _ _ => ?_
    split
    · exact .completed (digWrite_work (by simp))
    · exact .rejected
  | grpChase8Step g =>
    exact yields_withGroup fun _ _ =>
      .completed (chaseStep_work (by simp) _ _)
  -- button machines
  | tglPoll u =>
    exact yields_withToggle fun _ _ =>
      .completed (poll_work (State.setToggle_work _ _ _) (State.setLampBit_work _ _ _) (by simp))
  | tglConsumeEvent u => exact yields_withToggle fun _ _ => .completed (s.setToggle_work _ _)
  | tglGetState u => exact yields_withToggle fun _ _ => .completed (.refl _ _)
  | selPoll u =>
    refine yields_withSelect fun sc st hsc hst => .completed
      (poll_work (State.setSelect_work fun hs sc' i hsc' => ?_) (State.selLamps_work _ _ _) (by simp))
    rw [State.ioAutoPre_cfg, hsc] at hsc'
    obtain rfl := Option.some.inj hsc'
    exact selNext_selScan_lt (fun j hj => hs.selectRange u sc j (by simpa using hsc) (by simpa [hj] using hst)) i
  | selGetState u => exact yields_withSelect fun _ _ _ _ => .completed (.refl _ _)
  | selSetState u st =>
    refine yields_withSelect fun sc _ hsc _ => ?_
    split
    · exact .completed (State.setSelect_work fun _ _ _ _ h => nomatch h)
    · refine yields_rejectUnless fun hlt => .completed (State.setSelect_work fun _ sc' i hsc' hi => ?_)
      obtain rfl := Option.some.inj (hsc.symm.trans hsc')
      obtain rfl := Option.some.inj hi
      exact hlt
  | nlPoll u =>
    refine yields_withNoLamp fun nc t hnc ht => .completed
      ((s.ioAutoPre_work.trans (State.setNoLamp_work fun hs nc' hnc' => ?_)).mono
        fun _ hp => List.mem_append.mpr (List.mem_append.mp hp).symm)
    rw [State.ioAutoPre_cfg, hnc] at hnc'
    obtain rfl := Option.some.inj hnc'
    exact NoLampState.poll_state_lt _ (hs.noLampRange u nc t (by simpa using hnc) (by simpa using ht))
  | nlConsumeEvent u =>
    exact yields_withNoLamp fun _ t _ ht =>
      .completed (State.setNoLamp_work fun hs nc hnc => hs.noLampRange u nc t hnc ht)
  | nlGetState u => exact yields_withNoLamp fun _ _ _ _ => .completed (.refl _ _)
  -- status unit
  | statRead => exact .completed (.refl _ _)
  | statClear => exact .completed (clearFlags_work s)

/-- The three outcomes of a command, and what they leave behind. -/
theorem exec_next_cases {i : Instr} {s t : State} (h : exec i s = .next t) :
    t = s.rejected ∨ t = s.illegal .badUnit ∨ ∃ m v, Work (workParts s i) s m ∧ t = m.completed v := by
  have hy := exec_yields i s
  rw [h] at hy
  cases hy with
  | rejected => exact .inl rfl
  | badUnit => exact .inr (.inl rfl)
  | completed hw => exact .inr (.inr ⟨_, _, hw, rfl⟩)

/-! ### What every command and every step keeps -/

/-- No command changes a part outside its write list. -/
theorem exec_frame {i : Instr} {s t : State} (h : exec i s = .next t) : Frame (mayChange s i) s t := by
  obtain rfl | rfl | ⟨m, v, hw, rfl⟩ := exec_next_cases h
  · exact frame_mono s.rejected_frame (outcome_mem_mayChange s i)
  · exact frame_mono (s.illegal_frame _) (outcome_mem_mayChange s i)
  · have hport : Frame [.port, .status] m (m.completed v) := frame_mono (m.completed_frame v) (by simp)
    refine frame_mono (frame_trans hw.frame hport) fun p hp => ?_
    obtain hp | hp := List.mem_append.mp hp
    · exact mem_mayChange_of_mem_workParts hp
    · exact outcome_mem_mayChange s i p hp

/-- A completed command other than STAT_CLEAR leaves STATUS as it is. -/
theorem exec_status_cases {i : Instr} {s t : State} (h : exec i s = .next t) (hi : i ≠ .statClear) :
    t = s.rejected ∨ t = s.illegal .badUnit ∨ t.status = s.status := by
  obtain hr | hu | ⟨m, v, hw, rfl⟩ := exec_next_cases h
  · exact .inl hr
  · exact .inr (.inl hu)
  · exact .inr (.inr (hw.frame .status (status_not_mem_workParts s hi)))

theorem exec_intact {i : Instr} {s t : State} (hs : Intact s) (h : exec i s = .next t) : Intact t := by
  obtain rfl | rfl | ⟨m, v, hw, rfl⟩ := exec_next_cases h
  · exact intact_rejected hs
  · exact intact_illegal hs _
  · exact intact_completed (hw.intact hs) v

/-- Taking a word from the host changes nothing the invariant speaks of (R44). -/
theorem intact_takeWord {s : State} (hs : Intact s) (rest : List CmdWord) :
    Intact { s with host := rest } := { hs with }

/-- The invariant holds after every step if it held before. -/
theorem step_intact {s t : State} (hs : Intact s) (h : step s = .next t) : Intact t := by
  obtain ⟨_, _, ⟨_, rfl⟩ | ⟨w, rest, _, ⟨info, _, rfl⟩ | ⟨i, _, hx⟩⟩⟩ := step_next_cases h
  · exact hs
  · exact intact_illegal (intact_takeWord hs rest) info
  · exact exec_intact (intact_takeWord hs rest) hx

/-- R303: a halted block takes no command. -/
theorem step_of_halted {s : State} (hl : s.cfg.legal = true) (hh : s.halted = true) : step s = .fault .halted := by
  simp [step, hl, hh]

end Sys2Proof.Machine

/-! ### The obligations of 10_state.md -/

/-- Settles O18: every outcome of a command keeps the invariant, and so does taking a word. -/
theorem stepKeepsIntact : Obligations.StepKeepsIntact :=
  fun _ _ hs h => Sys2Proof.Machine.step_intact hs h

/-- Settles O12: `halted` is part of what construction fixes for good. -/
theorem haltedBit : Obligations.HaltedBit :=
  ⟨fun c _ => Sys2Proof.Machine.allocFails_iff c,
    fun s t h => congrArg Sys2Proof.Machine.FixedPart.halted (Sys2Proof.Machine.step_keepsFixed s t h),
    fun _ hl hh => Sys2Proof.Machine.step_of_halted hl hh⟩

/-- Settles O20, by cases on the outcome: a completed command's work leaves STATUS alone. -/
theorem statusBitsAreSticky : Obligations.StatusBitsAreSticky := by
  intro i s t h hi
  obtain rfl | rfl | hst := Sys2Proof.Machine.exec_status_cases h hi
  · cases hn : s.cfg.debugOorNotify with
    | false => exact .inl (by simp [Sys2Proof.Machine.setOor, hn])
    | true => exact .inr (.inr ⟨by simp [Sys2Proof.Machine.setOor, hn], rfl, rfl⟩)
  · exact .inr (.inl ⟨rfl, _, rfl⟩)
  · exact .inl hst

/-- Settles O22, by cases on the outcome: the port and STATUS stand in every write list, the work's parts in the
command's. -/
theorem commandsChangeOnlyTheirParts : Obligations.CommandsChangeOnlyTheirParts :=
  fun _ _ _ h => Sys2Proof.Machine.exec_frame h

/-- Settles O15: each buffer byte is at its draw, each unit at its reset value, and the rest by the definition. -/
theorem constructionValues : Obligations.ConstructionValues := by
  rintro c draw _ rfl
  exact ⟨fun _ h => Sys2Proof.Machine.Memory.getD_read?_buffer _ _ h,
    fun _ h => ⟨Sys2Proof.Machine.Memory.getD_read?_buffer _ _ h, Sys2Proof.Machine.Memory.getD_read?_buffer _ _ h⟩,
    fun _ h => Sys2Proof.Machine.Memory.getD_read?_buffer _ _ h,
    fun _ h => Sys2Proof.Machine.Memory.getD_read?_buffer _ _ h,
    rfl, rfl, rfl, rfl, rfl, rfl,
    fun _ h => Sys2Proof.Machine.getElem?_map_const_of_lt _ h,
    fun _ h => Sys2Proof.Machine.getElem?_map_const_of_lt _ h,
    fun _ h => Sys2Proof.Machine.getElem?_map_const_of_lt _ h,
    fun _ h => Sys2Proof.Machine.getElem?_map_const_of_lt _ h,
    Sys2Proof.Machine.allocFails_iff c,
    ⟨rfl, rfl, rfl, rfl⟩,
    ⟨Sys2Proof.Machine.not_activeHigh _, Sys2Proof.Machine.not_activeHigh _, Sys2Proof.Machine.not_activeHigh _,
      Sys2Proof.Machine.not_activeHigh _⟩,
    rfl⟩

/-- Settles O17: the reference configuration is legal and its buffers fit. -/
theorem resetIsIntact : Obligations.ResetIsIntact :=
  ⟨Sys2Proof.Machine.State.construct_intact _ _ (by decide), by decide⟩
end

section
/-! What a command puts on the wire, and what the output chains show after it (20_memory.md R70-R77, 60_exceptions.md
R305): cells and latch events make no update, a transaction makes one, and a full shift followed by the latch pulse shows
exactly the bytes that were shifted. -/

namespace Sys2Proof.Machine

open Sys2Proof.Safety

/-! ### Counting updates (60_exceptions.md R305) -/

@[simp] theorem updates_append (a b : List Event) : updates (a ++ b) = updates a + updates b := List.countP_append

theorem updates_of_isCell {es : List Event} (h : ∀ e ∈ es, e.isCell = true) : updates es = 0 := by
  refine List.countP_eq_zero.mpr fun e he => ?_
  cases e with
  | update u => exact absurd (h _ he) (by simp [Event.isCell])
  | _ => simp

/-- The cells of a transaction make no update, so its first and last events make them all. -/
theorem updates_around_cells {before cells after : List Event} (h : ∀ e ∈ cells, e.isCell = true) :
    updates (before ++ cells ++ after) = updates before + updates after := by
  simp [updates_of_isCell h]

theorem isCell_flatMap {α : Type} {f : α → List Event} (h : ∀ a, ∀ e ∈ f a, e.isCell = true) (l : List α) :
    ∀ e ∈ l.flatMap f, e.isCell = true := by
  intro e he
  obtain ⟨a, _, ha⟩ := List.mem_flatMap.mp he
  exact h a e ha

/-! ### Work that makes at most `n` updates -/

/-- From `s` to `m` the wire grew by events with at most `n` updates among them. -/
def Emits (n : Nat) (s m : State) : Prop := Grew s m ∧ ∃ es, m.trace = s.trace ++ es ∧ updates es ≤ n

theorem Emits.wired {n : Nat} {s m : State} (h : Emits n s m) : ∃ es, Wired s m es ∧ updates es ≤ n := by
  obtain ⟨hg, es, ht, hn⟩ := h
  exact ⟨es, hg.wired ht, hn⟩

theorem Emits.trans {a b : Nat} {s m m' : State} (h : Emits a s m) (h' : Emits b m m') : Emits (a + b) s m' := by
  obtain ⟨hg, es, ht, hn⟩ := h
  obtain ⟨hg', es', ht', hn'⟩ := h'
  refine ⟨hg.trans hg', es ++ es', by rw [ht', ht, List.append_assoc], ?_⟩
  rw [updates_append]
  exact Nat.add_le_add hn hn'

theorem Emits.mono {a b : Nat} {s m : State} (h : Emits a s m) (hab : a ≤ b) : Emits b s m := by
  obtain ⟨hg, es, ht, hn⟩ := h
  exact ⟨hg, es, ht, hn.trans hab⟩

/-- What changes neither the configuration nor the wire emits nothing. -/
theorem Emits.ofFrame {l : List Part} {s m : State} (h : Frame l s m) (hcfg : Part.cfg ∉ l) (hwire : Part.wire ∉ l)
    (n : Nat) : Emits n s m := by
  obtain ⟨htrace, hpins⟩ : agree .wire s m := h .wire hwire
  exact ⟨⟨h .cfg hcfg, [], by simp [Wired, htrace, hpins]⟩, [], by simp [htrace], Nat.zero_le n⟩

theorem Emits.refl (s : State) (n : Nat) : Emits n s s := .ofFrame (frame_refl [] s) (by simp) (by simp) n

/-! A transaction makes one update -/

theorem State.pixTransmit_emits (s : State) : Emits 1 s s.pixTransmit := by
  have hcells : ∀ e ∈ s.pixFrame.flatMap (shiftPixByte s.pixTransport), e.isCell = true :=
    isCell_flatMap (fun v => by rw [shiftPixByte_eq]; exact isCell_outCells .pix v) _
  exact ⟨s.pixTransmit_grew, _, rfl, (updates_around_cells hcells).le⟩

theorem State.digTransmit_emits (s : State) : Emits 1 s s.digTransmit := by
  have hcells : ∀ e ∈ s.digFrame.flatMap (shiftOutByte .dig), e.isCell = true :=
    isCell_flatMap (isCell_outCells .dig) _
  exact ⟨s.digTransmit_grew, _, rfl, (updates_around_cells (before := []) hcells).le⟩

theorem State.ioTransact_emits (s : State) : Emits 1 s s.ioTransact :=
  ⟨s.ioTransact_grew, _, s.ioTransact_trace, (updates_around_cells (List.forall_mem_map.mpr fun _ _ => rfl)).le⟩

theorem State.inTransact_emits (s : State) : Emits 1 s s.inTransact :=
  ⟨s.inTransact_grew, _, s.inTransact_trace, (updates_around_cells (List.forall_mem_map.mpr fun _ _ => rfl)).le⟩

/-! The transaction an auto unit runs by itself makes one update or none -/

theorem State.pixAutoTail_emits (s : State) : Emits 1 s s.pixAutoTail := by
  unfold State.pixAutoTail
  split
  · exact s.pixTransmit_emits
  · exact .refl s 1

theorem State.digAutoTail_emits (s : State) : Emits 1 s s.digAutoTail := by
  unfold State.digAutoTail
  split
  · exact s.digTransmit_emits
  · exact .refl s 1

theorem State.inAutoPre_emits (s : State) : Emits 1 s s.inAutoPre := by
  unfold State.inAutoPre
  split
  · exact s.inTransact_emits
  · exact .refl s 1

/-- The I/O unit's own transaction, counted exactly: a poll runs it twice (45_buttons.md R252, R257). -/
theorem State.ioAutoPre_emits_toNat (s : State) : Emits s.ioAuto.toNat s s.ioAutoPre := by
  unfold State.ioAutoPre
  cases s.ioAuto with
  | true => exact s.ioTransact_emits
  | false => exact .refl s 0

theorem State.ioAutoPre_emits (s : State) : Emits 1 s s.ioAutoPre := s.ioAutoPre_emits_toNat.mono (Bool.toNat_le _)

/-! A write off the wire, and the transaction after or before it -/

theorem pixWrite_emits (s : State) (m : Memory) : Emits 1 s (s.setPix m).pixAutoTail :=
  (Emits.ofFrame (s.setPix_frame m) (by decide) (by decide) 0).trans (s.setPix m).pixAutoTail_emits

theorem ioOutWrite_emits (s : State) (m : Memory) : Emits 1 s (s.setIoOut m).ioAutoPost :=
  (Emits.ofFrame (s.setIoOut_frame m) (by decide) (by decide) 0).trans (s.setIoOut m).ioAutoPre_emits

theorem lampWrite_emits (s : State) (k : Nat) (v : Bool) : Emits 1 s (s.setLampBit k v).ioAutoPost :=
  (Emits.ofFrame (s.setLampBit_frame k v) (by decide) (by decide) 0).trans (s.setLampBit k v).ioAutoPre_emits

theorem digWrite_emits (s : State) (m : Memory) : Emits 1 s (s.setDig m).digAutoTail :=
  (Emits.ofFrame (s.setDig_frame m) (by decide) (by decide) 0).trans (s.setDig m).digAutoTail_emits

theorem chaseStep_emits (s : State) (m : Memory) (g : Nat) (c : ChaseState) :
    Emits 1 s ((s.setDig m).setChase g c).digAutoTail :=
  (Emits.ofFrame (frame_trans (s.setDig_frame m) (State.setChase_frame _ g c)) (by decide) (by decide) 0).trans
    (State.digAutoTail_emits _)

theorem nlPoll_emits (s : State) (u : Nat) (t : NoLampState) : Emits 1 s (s.ioAutoPre.setNoLamp u t) :=
  s.ioAutoPre_emits.trans (.ofFrame (State.setNoLamp_frame _ u t) (by decide) (by decide) 0)

/-- A poll with a lamp runs two transactions in auto mode, else none: nothing between them touches IO_CFG or the wire. -/
theorem poll_emits {l : List Part} {s m : State} (h : Frame l s.ioAutoPre m) (hcfg : Part.cfg ∉ l)
    (hwire : Part.wire ∉ l) (hio : Part.ioCfg ∉ l) : Emits (s.ioAuto.toNat + s.ioAuto.toNat) s m.ioAutoPost := by
  have hioCfg : m.ioCfg = s.ioCfg := (h .ioCfg hio).trans s.ioAutoPre_ioCfg
  have hauto : m.ioAuto = s.ioAuto := by rw [State.ioAuto, hioCfg, State.ioAuto]
  have hpost : Emits s.ioAuto.toNat m m.ioAutoPost := hauto ▸ m.ioAutoPre_emits_toNat
  exact (s.ioAutoPre_emits_toNat.trans (.ofFrame h hcfg hwire 0)).trans hpost

/-! ### The transactions of a command -/

/-- How many transactions a command may run (R305): a toggle or select poll two in auto mode and none otherwise,
every other command at most one. -/
def maxTransactions (s : State) : Instr → Nat
  | .tglPoll _ | .selPoll _ => s.ioAuto.toNat + s.ioAuto.toNat
  | _ => 1

theorem maxTransactions_le (s : State) (i : Instr) : maxTransactions s i ≤ 2 := by
  have := s.ioAuto.toNat_le
  unfold maxTransactions
  split <;> omega

theorem poll_of_two_le_maxTransactions {s : State} {i : Instr} (h : 2 ≤ maxTransactions s i) :
    s.ioAuto = true ∧ ∃ u, i = .tglPoll u ∨ i = .selPoll u := by
  have := s.ioAuto.toNat_le
  unfold maxTransactions at h
  split at h
  · exact ⟨Bool.toNat_eq_one.mp (by omega), _, .inl rfl⟩
  · exact ⟨Bool.toNat_eq_one.mp (by omega), _, .inr rfl⟩
  · omega

/-- A command that completes has made no more updates than it may run transactions. -/
theorem exec_yields_emits (i : Instr) (s : State) : Yields s (Emits (maxTransactions s i) s) (exec i s) := by
  cases i with
  -- pixel unit
  | pixSetPixel i c => exact yields_rejectIf fun _ => .completed (pixWrite_emits s _)
  | pixSetAll c => exact .completed (pixWrite_emits s _)
  | pixFillRaw v => exact .completed (pixWrite_emits s _)
  | pixSetOrder m =>
    exact yields_rejectUnless fun h => .completed (.ofFrame (colorOrder_work s h).frame (by decide) (by decide) 1)
  | pixTransmit => exact .completed s.pixTransmit_emits
  | pixGetPixel i => exact yields_rejectIf fun _ => .completed (.refl s 1)
  -- I/O boards
  | ioSetLamp k v => exact yields_rejectIf fun _ => .completed (lampWrite_emits s k v)
  | ioSetLampAll v => exact .completed (ioOutWrite_emits s _)
  | ioGetButton k => exact yields_rejectIf fun _ => .completed s.ioAutoPre_emits
  | ioCountPressed => exact .completed s.ioAutoPre_emits
  | ioCountPressedRange o n => exact .completed s.ioAutoPre_emits
  | ioRawWrite b v => exact yields_rejectIf fun _ => .completed (ioOutWrite_emits s _)
  | ioRawRead b => exact yields_rejectIf fun _ => .completed s.ioAutoPre_emits
  | ioTransact => exact .completed s.ioTransact_emits
  | ioGetLamp k => exact yields_rejectIf fun _ => .completed (.refl s 1)
  -- input chain
  | inTransact => exact .completed s.inTransact_emits
  | inReadBit k => exact yields_rejectIf fun _ => .completed s.inAutoPre_emits
  | inReadByte b => exact yields_rejectIf fun _ => .completed s.inAutoPre_emits
  -- digit chain
  | digSetDigit p d dp => exact yields_rejectIf fun _ => .completed (digWrite_emits s _)
  | digCopySection f t n =>
    exact yields_rejectIf fun _ => yields_rejectIf fun _ => .completed (digWrite_emits s _)
  | digTransmit => exact .completed s.digTransmit_emits
  | digGetRaw p => exact yields_rejectIf fun _ => .completed (.refl s 1)
  -- digit groups
  | grpShowNumber g dpPos v => exact yields_withGroup fun _ _ => .completed (digWrite_emits s _)
  | grpShowSigned g dpPos v => exact yields_withGroup fun _ _ => .completed (digWrite_emits s _)
  | grpShowSymbol g k =>
    exact yields_withGroup fun _ _ => yields_rejectIf fun _ => .completed (digWrite_emits s _)
  | grpChase6 g q =>
    refine yields_withGroup fun _ _ => ?_
    split
    · exact .completed (digWrite_emits s _)
    · exact .rejected
  | grpChase6Step g => exact yields_withGroup fun _ _ => .completed (chaseStep_emits s _ _ _)
  | grpChase8 g q =>
    refine yields_withGroup fun _ _ => ?_
    split
    · exact .completed (digWrite_emits s _)
    · exact .rejected
  | grpChase8Step g => exact yields_withGroup fun _ _ => .completed (chaseStep_emits s _ _ _)
  -- button machines
  | tglPoll u =>
    exact yields_withToggle fun _ _ => .completed (poll_emits
      (frame_trans (State.setToggle_frame _ _ _) (State.setLampBit_frame _ _ _)) (by decide) (by decide) (by decide))
  | tglConsumeEvent u =>
    exact yields_withToggle fun _ _ => .completed (.ofFrame (s.setToggle_frame u _) (by decide) (by decide) 1)
  | tglGetState u => exact yields_withToggle fun _ _ => .completed (.refl s 1)
  | selPoll u =>
    exact yields_withSelect fun _ _ _ _ => .completed (poll_emits
      (frame_trans (State.setSelect_frame _ _ _) (State.selLamps_frame _ _ _)) (by decide) (by decide) (by decide))
  | selGetState u => exact yields_withSelect fun _ _ _ _ => .completed (.refl s 1)
  | selSetState u st =>
    have hset : ∀ x, Emits 1 s (s.setSelect u x) :=
      fun x => .ofFrame (s.setSelect_frame u x) (by decide) (by decide) 1
    refine yields_withSelect fun _ _ _ _ => ?_
    split
    · exact .completed (hset none)
    · exact yields_rejectUnless fun _ => .completed (hset (some st))
  | nlPoll u => exact yields_withNoLamp fun _ _ _ _ => .completed (nlPoll_emits s u _)
  | nlConsumeEvent u =>
    exact yields_withNoLamp fun _ _ _ _ => .completed (.ofFrame (s.setNoLamp_frame u _) (by decide) (by decide) 1)
  | nlGetState u => exact yields_withNoLamp fun _ _ _ _ => .completed (.refl s 1)
  -- status unit
  | statRead => exact .completed (.refl s 1)
  | statClear => exact .completed (.ofFrame (clearFlags_work s).frame (by decide) (by decide) 1)

/-- A command that does not complete emits nothing; one that does makes no more updates than it may run transactions. -/
theorem exec_wired {i : Instr} {s t : State} (h : exec i s = .next t) :
    ∃ es, Wired s t es ∧ (t.outcome ≠ some .complete → es = []) ∧ updates es ≤ maxTransactions s i := by
  have hy := exec_yields_emits i s
  rw [h] at hy
  cases hy with
  | rejected => exact ⟨[], by simp [Wired], fun _ => rfl, Nat.zero_le _⟩
  | badUnit => exact ⟨[], by simp [Wired], fun _ => rfl, Nat.zero_le _⟩
  | completed hm =>
    obtain ⟨es, hw, hn⟩ := hm.wired
    exact ⟨es, hw, fun hc => absurd rfl hc, hn⟩

/-! ### What a chain shows after a shift and its latch pulse (20_memory.md R75) -/

/-- Bytes shifted from board n−1 down to board 0 and then latched are what the chain shows, whatever went before. Events
that the chain does not see may stand before the pulse and after it. -/
theorem shownImage_shifted {ch : Channel} {l : Latch} {n : Nat} {f : Nat → Byte} {cells mid after : List Event}
    (before : List Event) (hcells : ∀ e ∈ cells, ∃ d i, e = .cell ch (some d) i)
    (hbits : cellBits cells = (List.range n).reverse.flatMap fun b => msbBits (f b))
    (hmid : ∀ c, mid.foldl (Chain.see ch l n) c = c) (hafter : ∀ c, after.foldl (Chain.see ch l n) c = c) :
    shownImage ch l n (before ++ (cells ++ (mid ++ .latchPulse l :: after))) = some ((List.range n).map f) := by
  have hlen : (cellBits cells).length = 8 * n := by
    rw [hbits, length_flatMap_const _ 8 (fun b => length_msbBits (f b)), List.length_reverse, List.length_range]
  have hstart : (before.foldl (Chain.see ch l n) ⟨[], none⟩).bits.length ≤ 8 * n :=
    foldl_see_length ch l n before _ (Nat.zero_le _)
  simp only [shownImage, List.foldl_append, List.foldl_cons, hmid, hafter]
  rw [foldl_see_latched ch l n cells _ hcells hlen hstart, hbits, chainBytes_shifted]

/-! The digit chain (44_digits.md R217) -/

theorem digCells_drive (l : List Byte) : ∀ e ∈ l.flatMap (shiftOutByte .dig), ∃ d i, e = .cell .dig (some d) i := by
  intro e he
  obtain ⟨v, _, hv⟩ := List.mem_flatMap.mp he
  obtain ⟨d, _, rfl⟩ := List.mem_map.mp hv
  exact ⟨d, none, rfl⟩

theorem cellBits_digFrame (s : State) : cellBits (s.digFrame.flatMap (shiftOutByte .dig)) =
    (List.range s.cfg.ndig).reverse.flatMap fun j => msbBits (s.byte .dig j) := by
  rw [cellBits_flatMap, State.digFrame, List.flatMap_map]
  rfl

theorem State.digTransmit_digitImage (s : State) :
    s.digTransmit.digitImage = some ((List.range s.cfg.ndig).map fun j => s.byte .dig j) :=
  shownImage_shifted (mid := []) (after := [.update .dig]) s.trace (digCells_drive _) (cellBits_digFrame s)
    (fun _ => rfl) (fun _ => rfl)

/-! The lamp chain (42_ioboard.md R180-R182) -/

/-- The cells of an exchange carry exactly the bits driven, when each has a bit to sample. -/
theorem cellBits_exchange {os ds : List Bool} (h : os.length ≤ ds.length) :
    cellBits (List.zipWith (fun o d => Event.cell .io (some o) (some d)) os ds) = os := by
  induction os generalizing ds with
  | nil => rfl
  | cons o os ih =>
    cases ds with
    | nil => simp at h
    | cons d ds => exact congrArg (o :: ·) (ih (Nat.le_of_succ_le_succ h))

theorem exchange_drive (os ds : List Bool) :
    ∀ e ∈ List.zipWith (fun o d => Event.cell .io (some o) (some d)) os ds, ∃ d i, e = .cell .io (some d) i := by
  intro e he
  rw [← List.map_uncurry_zip_eq_zipWith] at he
  obtain ⟨⟨o, d⟩, _, rfl⟩ := List.mem_map.mp he
  exact ⟨o, some d, rfl⟩

/-- The bits an IoTransact drives, in wire order: boards NB_IO−1 down to 0, inverted if INV_OUT (R180, R181). -/
def State.lampBits (s : State) : List Bool :=
  (List.range s.cfg.nbIo).reverse.flatMap fun b => msbBits (s.byte .ioOut b ^^^ invMask s.ioInvOut)

theorem State.length_lampBits (s : State) : s.lampBits.length = 8 * s.cfg.nbIo := by
  rw [State.lampBits, length_flatMap_const _ 8 (fun _ => length_msbBits _), List.length_reverse, List.length_range]

/-- An IoTransact's events as an exchange of the lamp bits for the draws. -/
theorem State.ioTransact_trace_exchange (s : State) :
    s.ioTransact.trace = (s.trace ++ [.latchAssert .ioLatIn]) ++
      (List.zipWith (fun o d => Event.cell .io (some o) (some d)) s.lampBits (ioDraws s) ++
        ([.latchRelease .ioLatIn] ++ .latchPulse .ioLatOut :: [.update .io])) := by
  obtain ⟨_, htrace, _⟩ := State.ioBoards_spec (List.range s.cfg.nbIo).reverse (s.emit [.latchAssert .ioLatIn])
  have hinv : (s.emit [.latchAssert .ioLatIn]).ioInvOut = s.ioInvOut := rfl
  simp only [List.length_reverse, List.length_range, State.emit_byte, hinv, State.emit_ioPins, State.emit_trace] at htrace
  rw [State.ioTransact, State.emit_trace, htrace, List.append_assoc]
  rfl

theorem State.ioTransact_lampImage (s : State) :
    s.ioTransact.lampImage =
      some ((List.range s.cfg.nbIo).map fun b => s.byte .ioOut b ^^^ invMask s.ioInvOut) := by
  have hbits := cellBits_exchange (os := s.lampBits) (ds := ioDraws s) (by simp [State.length_lampBits, ioDraws])
  rw [State.lampImage, State.ioTransact_cfg, State.ioTransact_trace_exchange]
  exact shownImage_shifted _ (exchange_drive _ _) hbits (fun _ => rfl) (fun _ => rfl)

end Sys2Proof.Machine

/-! ### The obligations of 20_memory.md -/

/-- Settles O21: the bound of `exec_wired` is two for a toggle or select poll in auto mode alone. -/
theorem traceOnlyGrows : Obligations.TraceOnlyGrows := by
  intro i s t h
  obtain ⟨es, hw, hnone, hle⟩ := Sys2Proof.Machine.exec_wired h
  exact ⟨es, hw, hnone, hle.trans (Sys2Proof.Machine.maxTransactions_le s i),
    fun htwo => Sys2Proof.Machine.poll_of_two_le_maxTransactions (htwo ▸ hle)⟩

/-- Settles O39: the last 8·NB_IO bits driven before the pulse are the lamp bytes, board 0 last. -/
theorem lampImageAfterTransact : Obligations.LampImageAfterTransact := by
  intro s hs
  refine ⟨_, rfl, ?_⟩
  rw [← Sys2Proof.Machine.ioInvOut_of_intact hs]
  exact Sys2Proof.Machine.State.ioTransact_lampImage s

/-- Settles O46: the last 8·NDIG bits driven before the pulse are the digit bytes, chip 0 last. -/
theorem digitImageAfterTransmit : Obligations.DigitImageAfterTransmit :=
  fun s _ => ⟨_, rfl, Sys2Proof.Machine.State.digTransmit_digitImage s⟩
end

section
/-! The encoding (30_encoding.md): what the decoder answers on a word, in terms of its fields and its row's reserved bits,
and that encoder and decoder undo each other. -/

namespace Sys2Proof

/-! ### What the decoder answers (R96) -/

/-- A code names an opcode exactly when it is the opcode's (R95). -/
theorem Opcode.ofCode_eq_some_iff {b : BitVec 8} {o : Opcode} : Opcode.ofCode b = some o ↔ o.code = b :=
  ⟨Opcode.code_of_ofCode, fun h => h ▸ Opcode.ofCode_code o⟩

/-- Everything the decoder can answer, check by check. -/
theorem decode_cases (w : CmdWord) :
    (Opcode.ofCode (fieldOpc w) = none ∧ decode w = .error .undefinedOpcode) ∨
      ∃ o : Opcode, o.code = fieldOpc w ∧
        ((w &&& o.resMask ≠ 0 ∧ decode w = .error .reservedBits) ∨
          (w &&& o.resMask = 0 ∧ decode w = .ok (o.build (fieldUnit w).toNat (fieldA w).toNat (fieldB w)))) := by
  cases ho : Opcode.ofCode (fieldOpc w) with
  | none => exact .inl ⟨rfl, by simp only [decode, ho]⟩
  | some o =>
    refine .inr ⟨o, Opcode.code_of_ofCode ho, ?_⟩
    by_cases hr : w &&& o.resMask ≠ 0
    · exact .inl ⟨hr, by simp only [decode, ho, if_pos hr]⟩
    · exact .inr ⟨not_not.mp hr, by simp only [decode, ho, if_neg hr]⟩

/-- A word decodes exactly when its OPC is defined and no reserved bit is set, and then to its row's command of its
fields. -/
theorem decode_eq_ok_iff {w : CmdWord} {i : Instr} :
    decode w = .ok i ↔ ∃ o : Opcode, o.code = fieldOpc w ∧ w &&& o.resMask = 0 ∧
      o.build (fieldUnit w).toNat (fieldA w).toNat (fieldB w) = i := by
  constructor
  · intro h
    obtain ⟨_, he⟩ | ⟨o, ho, ⟨_, he⟩ | ⟨hr, hok⟩⟩ := decode_cases w
    · simp [he] at h
    · simp [he] at h
    · exact ⟨o, ho, hr, Except.ok.inj (hok.symm.trans h)⟩
  · rintro ⟨o, ho, hr, rfl⟩
    simp [decode, Opcode.ofCode_eq_some_iff.mpr ho, hr]

/-! ### Operand B in its layout (R93) -/

/-- Without a reserved bit set, B is its value bits. -/
theorem setWidth_extractLsb'_of_reserved (l : Layout) (k : Nat) {b : Word} (hl : l.reserved = BitVec.allOnes 32 <<< k)
    (h : b &&& l.reserved = 0) : (b.extractLsb' 0 k).setWidth 32 = b := by
  refine BitVec.eq_of_getLsbD_eq fun j hj => ?_
  rw [BitVec.getLsbD_setWidth, BitVec.getLsbD_extractLsb', Nat.zero_add]
  by_cases hjk : j < k
  · simp [hj, hjk]
  · have hbit : (b &&& (BitVec.allOnes 32 <<< k)).getLsbD j = false := by rw [← hl, h]; exact BitVec.getLsbD_zero
    have hones : (BitVec.allOnes 32 <<< k).getLsbD j = true := by
      simp only [BitVec.getLsbD_shiftLeft, BitVec.getLsbD_allOnes, hj, hjk, decide_true, decide_false, Bool.not_false,
        Bool.true_and, decide_eq_true_eq]
      omega
    have hclear : b.getLsbD j = false := by simpa only [BitVec.getLsbD_and, hones, Bool.and_true] using hbit
    simp [hjk, hclear]

theorem ofBool_getLsbD (b : Word) (k : Nat) : BitVec.ofBool (b.getLsbD k) = b.extractLsb' k 1 :=
  BitVec.eq_of_getLsbD_eq fun j hj => by
    obtain rfl : j = 0 := by omega
    simp

theorem ofNat_toNat_self {n : Nat} (x : BitVec n) : BitVec.ofNat n x.toNat = x :=
  (BitVec.ofNat_toNat n x).trans (BitVec.setWidth_eq x)

/-- A number below 2^k is read back from the low `k` bits of B. -/
theorem toNat_extractLsb'_ofNat {n k : Nat} (hk : k ≤ 32) (h : n < 2 ^ k) :
    ((BitVec.ofNat 32 n).extractLsb' 0 k).toNat = n := by
  rw [← BitVec.setWidth_eq_extractLsb' hk, BitVec.setWidth_ofNat_of_le hk, BitVec.toNat_ofNat, Nat.mod_eq_of_lt h]

/-- A value of `k` bits is read back from the low `k` bits of B. -/
theorem extractLsb'_setWidth {k : Nat} (hk : k ≤ 32) (c : BitVec k) : (c.setWidth 32).extractLsb' 0 k = c := by
  rw [BitVec.extractLsb'_setWidth_of_le (by omega), BitVec.extractLsb'_eq_self]

theorem getLsbD_setWidth_ofBool (v : Bool) : ((BitVec.ofBool v).setWidth 32).getLsbD 0 = v := by simp

/-! ### Building a command from its fields, and back -/

/-- The opcode of a row's command is the row's. -/
@[simp] theorem Opcode.opcode_build (o : Opcode) (u a : Nat) (b : Word) : (o.build u a b).opcode = o := by
  cases o <;> rfl

/-- A row whose unit is single leaves UNIT out (R92). -/
theorem Opcode.unit_build (o : Opcode) (u a : Nat) (b : Word) :
    (o.build u a b).fields.2.1 = if o.unitKind = .single then 0 else u := by cases o <;> rfl

/-- A row with "-" in the A column leaves A out (R95). -/
theorem Opcode.operandA_build (o : Opcode) (u a : Nat) (b : Word) :
    (o.build u a b).fields.2.2.1 = if o.takesA then a else 0 := by cases o <;> rfl

/-- By layouts: the operands of B make B again where its reserved bits are 0. -/
theorem Opcode.operandB_build (o : Opcode) (u a : Nat) {b : Word} (h : b &&& o.layout.reserved = 0) :
    (o.build u a b).fields.2.2.2 = b := by
  cases o with
  | pixSetPixel | pixSetAll => exact setWidth_extractLsb'_of_reserved .color24 24 rfl h
  | pixFillRaw | ioRawWrite => exact setWidth_extractLsb'_of_reserved .byte8 8 rfl h
  | pixSetOrder => exact setWidth_extractLsb'_of_reserved .laneMap8 8 rfl h
  | ioSetLamp | ioSetLampAll =>
    exact (congrArg (·.setWidth 32) (ofBool_getLsbD b 0)).trans (setWidth_extractLsb'_of_reserved .bit1 1 rfl h)
  | ioCountPressedRange =>
    exact (BitVec.ofNat_toNat 32 _).trans (setWidth_extractLsb'_of_reserved .count16 16 rfl h)
  | grpShowSymbol => exact (BitVec.ofNat_toNat 32 _).trans (setWidth_extractLsb'_of_reserved .sym3 3 rfl h)
  | digSetDigit =>
    have hvalue : BitVec.ofBool (b.getLsbD 8) ++ BitVec.ofNat 8 (b.extractLsb' 0 8).toNat = b.extractLsb' 0 9 := by
      rw [ofBool_getLsbD, ofNat_toNat_self]
      exact BitVec.extractLsb'_append_extractLsb'_eq_extractLsb' rfl
    exact (congrArg (·.setWidth 32) hvalue).trans (setWidth_extractLsb'_of_reserved .digDp 9 rfl h)
  | digCopySection =>
    have hto : BitVec.ofNat 16 (b.extractLsb' 16 16).toNat = b.extractLsb' 16 16 := ofNat_toNat_self _
    have hlen : BitVec.ofNat 16 (b.extractLsb' 0 16).toNat = b.extractLsb' 0 16 := ofNat_toNat_self _
    exact (congrArg₂ (· ++ ·) hto hlen).trans BitVec.extractLsb'_append_extractLsb'
  | grpShowNumber => exact ofNat_toNat_self b
  | grpShowSigned => exact BitVec.ofInt_toInt
  | pixTransmit | pixGetPixel | ioGetButton | ioCountPressed | ioRawRead | ioTransact | ioGetLamp | inTransact
  | inReadBit | inReadByte | digTransmit | digGetRaw | grpChase6 | grpChase6Step | grpChase8 | grpChase8Step
  | tglPoll | tglConsumeEvent | tglGetState | selPoll | selGetState | selSetState | nlPoll | nlConsumeEvent
  | nlGetState | statRead | statClear => exact h.symm.trans BitVec.and_allOnes

/-- Fields of their widths make a well-formed command. -/
theorem Opcode.build_wellFormed (o : Opcode) {u a : Nat} (b : Word) (hu : u < 256) (ha : a < 65536) :
    (o.build u a b).wellFormed = true := by
  have h3 : (b.extractLsb' 0 3).toNat < 8 := (b.extractLsb' 0 3).isLt
  have h8 : (b.extractLsb' 0 8).toNat < 256 := (b.extractLsb' 0 8).isLt
  have h16 : ∀ s, (b.extractLsb' s 16).toNat < 65536 := fun s => (b.extractLsb' s 16).isLt
  have hunsigned : b.toNat < 4294967296 := b.isLt
  have hsigned : -2147483648 ≤ b.toInt ∧ b.toInt < 2147483648 := ⟨b.le_toInt, b.toInt_lt⟩
  cases o <;> simp only [Opcode.build, Instr.wellFormed, fitsUnit, fits16, hu, ha, h3, h8, h16, hunsigned, hsigned,
    decide_true, Bool.and_true, and_self]

/-- The UNIT and A of a well-formed command fit their fields. -/
theorem Instr.fields_lt {i : Instr} (h : i.wellFormed = true) : i.fields.2.1 < 256 ∧ i.fields.2.2.1 < 65536 := by
  cases i <;> simp_all [Instr.wellFormed, Instr.fields, fitsUnit, fits16]

/-- A well-formed command is built again from its fields. -/
theorem Instr.build_fields {i : Instr} (h : i.wellFormed = true) :
    i.opcode.build i.fields.2.1 i.fields.2.2.1 i.fields.2.2.2 = i := by
  cases i with
  | pixSetPixel a c => exact congrArg (Instr.pixSetPixel a) (extractLsb'_setWidth (by decide) c)
  | pixSetAll c => exact congrArg Instr.pixSetAll (extractLsb'_setWidth (by decide) c)
  | pixFillRaw v => exact congrArg Instr.pixFillRaw (extractLsb'_setWidth (by decide) v)
  | pixSetOrder m => exact congrArg Instr.pixSetOrder (extractLsb'_setWidth (by decide) m)
  | ioRawWrite a v => exact congrArg (Instr.ioRawWrite a) (extractLsb'_setWidth (by decide) v)
  | ioSetLamp k v => exact congrArg (Instr.ioSetLamp k) (getLsbD_setWidth_ofBool v)
  | ioSetLampAll v => exact congrArg Instr.ioSetLampAll (getLsbD_setWidth_ofBool v)
  | ioCountPressedRange o n =>
    simp only [Instr.wellFormed, fits16, Bool.and_eq_true, decide_eq_true_eq] at h
    exact congrArg (Instr.ioCountPressedRange o) (toNat_extractLsb'_ofNat (by decide) h.2)
  | grpShowSymbol g k =>
    simp only [Instr.wellFormed, Bool.and_eq_true, decide_eq_true_eq] at h
    exact congrArg (Instr.grpShowSymbol g) (toNat_extractLsb'_ofNat (by decide) h.2)
  | digSetDigit p d dp =>
    simp only [Instr.wellFormed, Bool.and_eq_true, decide_eq_true_eq] at h
    have hd : (((BitVec.ofBool dp ++ BitVec.ofNat 8 d).setWidth 32 : Word).extractLsb' 0 8).toNat = d := by
      rw [BitVec.extractLsb'_setWidth_of_le (by decide), BitVec.extractLsb'_append_eq_right, BitVec.toNat_ofNat,
        Nat.mod_eq_of_lt h.2]
    have hdp : ((BitVec.ofBool dp ++ BitVec.ofNat 8 d).setWidth 32 : Word).getLsbD 8 = dp := by
      rw [BitVec.getLsbD_setWidth, BitVec.getLsbD_append]
      simp
    exact congrArg₂ (Instr.digSetDigit p) hd hdp
  | digCopySection f t n =>
    simp only [Instr.wellFormed, fits16, Bool.and_eq_true, decide_eq_true_eq] at h
    obtain ⟨⟨_, ht⟩, hn⟩ := h
    simp only [Instr.opcode, Instr.fields, Opcode.build, BitVec.extractLsb'_append_eq_left,
      BitVec.extractLsb'_append_eq_right, BitVec.toNat_ofNat, Nat.mod_eq_of_lt ht, Nat.mod_eq_of_lt hn]
  | grpShowNumber g p v =>
    simp only [Instr.wellFormed, Bool.and_eq_true, decide_eq_true_eq] at h
    exact congrArg (Instr.grpShowNumber g p) (Nat.mod_eq_of_lt h.2)
  | grpShowSigned g p v =>
    simp only [Instr.wellFormed, Bool.and_eq_true, decide_eq_true_eq] at h
    obtain ⟨_, hlo, hhi⟩ := h
    exact congrArg (Instr.grpShowSigned g p) (BitVec.toInt_ofInt_eq_self (by decide) hlo hhi)
  | _ => rfl

/-- Every well-formed command's word has its row's OPC and no reserved bit set (R96, R98). -/
theorem encode_shape (i : Instr) : Laws.EncodeShape.Statement i := by
  open Laws.EncodeShape in
  cases i with
  | pixSetPixel i c => exact pixSetPixel i c
  | pixSetAll c => exact pixSetAll c
  | pixFillRaw v => exact pixFillRaw v
  | pixSetOrder m => exact pixSetOrder m
  | pixTransmit => exact pixTransmit
  | pixGetPixel i => exact pixGetPixel i
  | ioSetLamp k v => exact ioSetLamp k v
  | ioSetLampAll v => exact ioSetLampAll v
  | ioGetButton k => exact ioGetButton k
  | ioCountPressed => exact ioCountPressed
  | ioCountPressedRange o n => exact ioCountPressedRange o n
  | ioRawWrite b v => exact ioRawWrite b v
  | ioRawRead b => exact ioRawRead b
  | ioTransact => exact ioTransact
  | ioGetLamp k => exact ioGetLamp k
  | inTransact => exact inTransact
  | inReadBit k => exact inReadBit k
  | inReadByte b => exact inReadByte b
  | digSetDigit p d dp => exact digSetDigit p d dp
  | digCopySection f t n => exact digCopySection f t n
  | digTransmit => exact digTransmit
  | digGetRaw p => exact digGetRaw p
  | grpShowNumber g dpPos v => exact grpShowNumber g dpPos v
  | grpShowSigned g dpPos v => exact grpShowSigned g dpPos v
  | grpShowSymbol g k => exact grpShowSymbol g k
  | grpChase6 g q => exact grpChase6 g q
  | grpChase6Step g => exact grpChase6Step g
  | grpChase8 g q => exact grpChase8 g q
  | grpChase8Step g => exact grpChase8Step g
  | tglPoll u => exact tglPoll u
  | tglConsumeEvent u => exact tglConsumeEvent u
  | tglGetState u => exact tglGetState u
  | selPoll u => exact selPoll u
  | selGetState u => exact selGetState u
  | selSetState u st => exact selSetState u st
  | nlPoll u => exact nlPoll u
  | nlConsumeEvent u => exact nlConsumeEvent u
  | nlGetState u => exact nlGetState u
  | statRead => exact statRead
  | statClear => exact statClear

/-! ### Encoder and decoder (R98) -/

/-- Both checks pass, the fields come back whole, and they build the command again. -/
theorem decode_encode {i : Instr} (h : i.wellFormed = true) : decode (encode i) = .ok i := by
  obtain ⟨hopc, hres⟩ := encode_shape i h
  obtain ⟨hu, ha⟩ := Instr.fields_lt h
  refine decode_eq_ok_iff.mpr ⟨i.opcode, hopc.symm, hres, ?_⟩
  rw [encode, fieldUnit_packWord, fieldA_packWord, fieldB_packWord, BitVec.toNat_ofNat, BitVec.toNat_ofNat,
    Nat.mod_eq_of_lt hu, Nat.mod_eq_of_lt ha]
  exact Instr.build_fields h

theorem decode_of_encode_eq {i : Instr} {w : CmdWord} (h : i.wellFormed = true) (hw : encode i = w) :
    decode w = .ok i := hw ▸ decode_encode h

theorem wellFormed_of_decode {w : CmdWord} {i : Instr} (h : decode w = .ok i) : i.wellFormed = true := by
  obtain ⟨o, _, _, rfl⟩ := decode_eq_ok_iff.mp h
  exact o.build_wellFormed _ (fieldUnit w).isLt (fieldA w).isLt

/-- A row's command of fields without a reserved bit set has those fields. -/
theorem Opcode.fields_build (o : Opcode) {u a : Nat} {b : Word} (hu : o.unitKind = .single → u = 0)
    (ha : o.takesA = false → a = 0) (hb : b &&& o.layout.reserved = 0) : (o.build u a b).fields = (o, u, a, b) := by
  have hunit : (o.build u a b).fields.2.1 = u := by
    rw [o.unit_build]
    split
    · exact (hu ‹_›).symm
    · rfl
  have hA : (o.build u a b).fields.2.2.1 = a := by
    rw [o.operandA_build]
    cases ht : o.takesA with
    | true => rfl
    | false => exact (ha ht).symm
  exact Prod.ext (o.opcode_build u a b) (Prod.ext hunit (Prod.ext hA (o.operandB_build u a hb)))

/-- The word and the command's encoding are packed from the same fields. -/
theorem encode_of_decode {w : CmdWord} {i : Instr} (h : decode w = .ok i) : encode i = w := by
  obtain ⟨o, hopc, hres, rfl⟩ := decode_eq_ok_iff.mp h
  rw [← packWord_fields w, packWord_and_resMask, ofNat_toNat_self, ofNat_toNat_self] at hres
  obtain ⟨hu, ha, hb⟩ := hres
  rw [encode, o.fields_build (fun hs => congrArg BitVec.toNat (hu hs)) (fun hs => congrArg BitVec.toNat (ha hs)) hb, hopc]
  exact packWord_fields w

/-- The words that decode to a command of an opcode are those with its code and no reserved bit of its row set. -/
theorem exists_decode_opcode_iff {w : CmdWord} {o : Opcode} :
    (∃ i, decode w = .ok i ∧ i.opcode = o) ↔ o.code = fieldOpc w ∧ w &&& o.resMask = 0 := by
  constructor
  · rintro ⟨i, hd, rfl⟩
    obtain ⟨o, hopc, hres, rfl⟩ := decode_eq_ok_iff.mp hd
    rw [o.opcode_build]
    exact ⟨hopc, hres⟩
  · rintro ⟨hopc, hres⟩
    exact ⟨_, decode_eq_ok_iff.mpr ⟨o, hopc, hres, rfl⟩, o.opcode_build _ _ _⟩

/-! ### The opcode map as a table (R95, R96) -/

/-- The row of an opcode: its code, and its code and reserved bits as the mask. -/
def Opcode.row (o : Opcode) : Safety.TableRow :=
  ⟨o, o.code ++ 0#56, 0xFF#8 ++ o.resMask.extractLsb' 0 56⟩

/-- The table of the machine-readable map is the rows of the opcode map in its order. -/
theorem tableRows_eq : Safety.tableRows = Opcode.all.map Opcode.row := by decide

theorem exists_mem_tableRows {p : Safety.TableRow → Prop} :
    (∃ r ∈ Safety.tableRows, p r) ↔ ∃ o : Opcode, p o.row := by
  simp only [tableRows_eq, List.mem_map, Opcode.mem_all, true_and, exists_exists_eq_and]

/-- A word is its OPC field and the 56 bits below it. -/
theorem fieldOpc_append (w : CmdWord) : fieldOpc w ++ w.extractLsb' 0 56 = w :=
  BitVec.extractLsb'_append_extractLsb'

/-- No reserved bit lies in the OPC field. -/
theorem Opcode.resMask_eq_append (o : Opcode) : 0#8 ++ o.resMask.extractLsb' 0 56 = o.resMask := by
  cases o <;> decide

theorem append_eq_append_iff {m n : Nat} {x x' : BitVec m} {y y' : BitVec n} :
    x ++ y = x' ++ y' ↔ x = x' ∧ y = y' := by
  constructor
  · intro h
    exact ⟨by simpa only [BitVec.extractLsb'_append_eq_left] using congrArg (BitVec.extractLsb' n m) h,
      by simpa only [BitVec.extractLsb'_append_eq_right] using congrArg (BitVec.extractLsb' 0 n) h⟩
  · rintro ⟨rfl, rfl⟩
    rfl

/-- The reserved bits lie below the OPC field. -/
theorem and_resMask_eq_zero_iff (w : CmdWord) (o : Opcode) :
    w &&& o.resMask = 0 ↔ w.extractLsb' 0 56 &&& o.resMask.extractLsb' 0 56 = 0#56 := by
  have hand : w &&& o.resMask = 0#8 ++ (w.extractLsb' 0 56 &&& o.resMask.extractLsb' 0 56) := by
    conv_lhs => rw [← fieldOpc_append w, ← o.resMask_eq_append, append_and_append, BitVec.and_zero]
  rw [hand, show (0 : CmdWord) = 0#8 ++ 0#56 from rfl, append_eq_append_iff]
  simp only [true_and]

/-- A word matches an opcode's row exactly when its OPC is the opcode's and no reserved bit is set. -/
theorem and_row_mask_eq_value_iff (w : CmdWord) (o : Opcode) :
    w &&& o.row.mask = o.row.value ↔ o.code = fieldOpc w ∧ w &&& o.resMask = 0 := by
  have hand : w &&& o.row.mask = fieldOpc w ++ (w.extractLsb' 0 56 &&& o.resMask.extractLsb' 0 56) := by
    conv_lhs => rw [← fieldOpc_append w, Opcode.row, append_and_append, show 0xFF#8 = BitVec.allOnes 8 from rfl,
      BitVec.and_allOnes]
  rw [hand, and_resMask_eq_zero_iff, Opcode.row, append_eq_append_iff, eq_comm (a := fieldOpc w)]

/-- The OPC field of a row's match is its opcode's code. -/
theorem Opcode.fieldOpc_row_value (o : Opcode) : fieldOpc o.row.value = o.code := BitVec.extractLsb'_append_eq_left

/-! ### The decoder's refusals (R96, R97) -/

/-- The undefined ranges of R97 are the codes that name no opcode. -/
theorem ofCode_eq_none_iff : ∀ b : BitVec 8, Opcode.ofCode b = none ↔ Safety.undefinedOpc b = true := by decide

theorem decode_eq_undefinedOpcode_iff (w : CmdWord) :
    decode w = .error .undefinedOpcode ↔ Opcode.ofCode (fieldOpc w) = none := by
  obtain ⟨hn, he⟩ | ⟨o, ho, ⟨_, he⟩ | ⟨_, he⟩⟩ := decode_cases w
  · simp [hn, he]
  · simp [he, ← ho]
  · simp [he, ← ho]

theorem decode_eq_reservedBits_iff (w : CmdWord) :
    decode w = .error .reservedBits ↔ ∃ o : Opcode, o.code = fieldOpc w ∧ w &&& o.resMask ≠ 0 := by
  constructor
  · intro h
    obtain ⟨_, he⟩ | ⟨o, ho, ⟨hr, _⟩ | ⟨_, he⟩⟩ := decode_cases w
    · simp [he] at h
    · exact ⟨o, ho, hr⟩
    · simp [he] at h
  · rintro ⟨o, ho, hr⟩
    simp only [decode, Opcode.ofCode_eq_some_iff.mpr ho, if_pos hr]

theorem decode_ne_badUnit (w : CmdWord) : decode w ≠ .error .badUnit := by
  obtain ⟨_, he⟩ | ⟨_, _, ⟨_, he⟩ | ⟨_, he⟩⟩ := decode_cases w <;> simp [he]

end Sys2Proof

namespace Sys2Proof.Machine

open Sys2Proof.Safety

/-! ### The assembler (R101, R102) -/

/-- A unit operand of the wanted kind that fits UNIT is taken as it is. -/
theorem asmUnit_unit (k : UnitKind) {n : Nat} (h : n < 256) : asmUnit k (.unit k n) = some n := by
  simp [asmUnit, h]

theorem assemble_grpClear {n : Nat} (h : n < 256) :
    assemble .grpClear [.unit .group n] = some (.grpShowSymbol n 0) := by
  simp [assemble, asmUnit_unit _ h, Pseudo.expand]

theorem assemble_grpShowSymbol_blank {n : Nat} (h : n < 256) :
    assemble (.op .grpShowSymbol) [.unit .group n, .symbol .blank] = some (.grpShowSymbol n 0) := by
  simp [assemble, assembleOp, asmUnit_unit _ h, asmSymbol, symbolCode]

theorem assemble_selClear {n : Nat} (h : n < 256) :
    assemble .selClear [.unit .select n] = some (.selSetState n 0xFFFF) := by
  simp [assemble, asmUnit_unit _ h, Pseudo.expand]

theorem assemble_selSetState_reset {n : Nat} (h : n < 256) :
    assemble (.op .selSetState) [.unit .select n, .reset] = some (.selSetState n 0xFFFF) := by
  simp [assemble, assembleOp, asmUnit_unit _ h, asmSelState]

/-! ### The step on a decoded word (R44, R96) -/

/-- A running machine takes the word presented and executes what it decodes to. -/
theorem step_of_decode_ok {s : State} {w : CmdWord} {rest : List CmdWord} {i : Instr} (hl : s.cfg.legal = true)
    (hh : s.halted = false) (hw : s.host = w :: rest) (hd : decode w = .ok i) :
    step s = exec i { s with host := rest } := by
  simp [step, hl, hh, State.takeCommand, hw, hd]

/-! ### Units out of range (R92, R97): Illegal(BAD_UNIT) before the command's own work -/

section
variable {s : State} {u : Nat}

theorem withGroup_of_length_le (f : GroupCfg → ChaseState → Answer) (h : s.cfg.groups.length ≤ u) :
    withGroup u s f = .next (s.illegal .badUnit) := by
  simp [withGroup, List.getElem?_eq_none h]

theorem withToggle_of_length_le (f : Nat → ToggleState → Answer) (h : s.cfg.toggles.length ≤ u) :
    withToggle u s f = .next (s.illegal .badUnit) := by
  simp [withToggle, List.getElem?_eq_none h]

theorem withSelect_of_length_le (f : SelectCfg → Option Nat → Answer) (h : s.cfg.selects.length ≤ u) :
    withSelect u s f = .next (s.illegal .badUnit) := by
  simp [withSelect, List.getElem?_eq_none h]

theorem withNoLamp_of_length_le (f : NoLampCfg → NoLampState → Answer) (h : s.cfg.noLamps.length ≤ u) :
    withNoLamp u s f = .next (s.illegal .badUnit) := by
  simp [withNoLamp, List.getElem?_eq_none h]

end

/-- By the unit kind of the command; a command without a unit has no bad one. -/
theorem exec_of_badUnit {i : Instr} {s : State} (h : badUnit s.cfg i = true) :
    exec i s = .next (s.illegal .badUnit) := by
  cases i with
  | grpShowNumber | grpShowSigned | grpShowSymbol | grpChase6 | grpChase6Step | grpChase8 | grpChase8Step =>
    exact withGroup_of_length_le _ (of_decide_eq_true h)
  | tglPoll | tglConsumeEvent | tglGetState => exact withToggle_of_length_le _ (of_decide_eq_true h)
  | selPoll | selGetState | selSetState => exact withSelect_of_length_le _ (of_decide_eq_true h)
  | nlPoll | nlConsumeEvent | nlGetState => exact withNoLamp_of_length_le _ (of_decide_eq_true h)
  | _ => exact absurd h Bool.noConfusion

end Sys2Proof.Machine

/-! ### The obligations of 30_encoding.md -/

/-- Settles O1: a well-formed command's word has its fields, and its row builds it from them again. -/
theorem decodeOfEncode : Obligations.DecodeOfEncode := fun _ h => Sys2Proof.decode_encode h

/-- Settles O2: the fields of a decoded command are those of its word, its reserved bits being 0. -/
theorem oneEncodingPerCommand : Obligations.OneEncodingPerCommand :=
  fun _ _ h => ⟨Sys2Proof.wellFormed_of_decode h, Sys2Proof.encode_of_decode h⟩

/-- Settles O3: a row's mask and match say what the decoder's two checks say. -/
theorem decodeFollowsOpcodeTable : Obligations.DecodeFollowsOpcodeTable := by
  intro w o
  rw [Sys2Proof.exists_decode_opcode_iff, ← Sys2Proof.and_row_mask_eq_value_iff, Sys2Proof.exists_mem_tableRows]
  constructor
  · exact fun h => ⟨o, rfl, h⟩
  · rintro ⟨o', rfl, h⟩
    exact h

/-- Settles O4: both refusals row by row; where the OPC is the row's, not to match the row is to set a reserved bit. -/
theorem decodeRefusesByName : Obligations.DecodeRefusesByName := by
  refine fun w => ⟨?_, ?_, Sys2Proof.decode_ne_badUnit w⟩
  · exact (Sys2Proof.decode_eq_undefinedOpcode_iff w).trans (Sys2Proof.ofCode_eq_none_iff _)
  · rw [Sys2Proof.decode_eq_reservedBits_iff, Sys2Proof.exists_mem_tableRows]
    refine exists_congr fun o => ?_
    change _ ↔ Sys2Proof.fieldOpc w = Sys2Proof.fieldOpc o.row.value ∧ _
    rw [o.fieldOpc_row_value, Ne, Ne, Sys2Proof.and_row_mask_eq_value_iff, eq_comm (a := Sys2Proof.fieldOpc w)]
    exact and_congr_right fun hopc => by simp only [hopc, true_and]

/-- Settles O9: the unit is looked up before anything else, and the illegal outcome changes the port and STATUS alone. -/
theorem outOfRangeUnitIsIllegal : Obligations.OutOfRangeUnitIsIllegal :=
  fun _ s _ h => ⟨_, Sys2Proof.Machine.exec_of_badUnit h, s.illegal_frame _, rfl, rfl, rfl⟩

/-- Settles O5: each line and each encoding by evaluation, each decoding from its encoding. -/
theorem workedEncodings : Obligations.WorkedEncodings :=
  ⟨⟨by decide, rfl, Sys2Proof.decode_of_encode_eq rfl rfl⟩, ⟨by decide, rfl, Sys2Proof.decode_of_encode_eq rfl rfl⟩,
    ⟨by decide, rfl, Sys2Proof.decode_of_encode_eq rfl rfl⟩⟩

/-- Settles O6: the operand-free lines evaluate; a unit that fits goes through to the expansion. -/
theorem pseudoInstructionsExpand : Obligations.PseudoInstructionsExpand := by
  refine ⟨rfl, rfl, rfl, rfl, rfl, rfl, fun n hn => ?_⟩
  have hclear := Sys2Proof.Machine.assemble_grpClear hn
  have hreset := Sys2Proof.Machine.assemble_selClear hn
  exact ⟨hclear.trans (Sys2Proof.Machine.assemble_grpShowSymbol_blank hn).symm, hclear,
    hreset.trans (Sys2Proof.Machine.assemble_selSetState_reset hn).symm, hreset⟩

/-- Settles O7: the step's checks pass, and the host's first word is the one decoded. -/
theorem stepRunsDecodedCommand : Obligations.StepRunsDecodedCommand :=
  fun _ _ _ _ hl hh hw hd => Sys2Proof.Machine.step_of_decode_ok hl hh hw hd
end

section
/-! The pixel unit (41_pixel.md): a legal lane map is a permutation of the lanes, a pixel write stores its list of bytes
and transmits in auto mode, and a read undoes the permutation. -/

namespace Sys2Proof.Machine

open Sys2Proof.Safety

/-! ### Colour lanes (20_memory.md R62) -/

theorem lane_eq_extractLsb' (c : Colour) {x : Nat} (hx : x < 3) : lane c x = c.extractLsb' (16 - 8 * x) 8 := by
  match x, hx with
  | 0, _ | 1, _ | 2, _ => rfl

/-- The lanes of a colour laid together from three bytes are those bytes. -/
theorem lane_append (f : Nat → Byte) {x : Nat} (hx : x < 3) : lane (f 0 ++ f 1 ++ f 2) x = f x := by
  have hbit (i : Nat) : (f 0 ++ f 1 ++ f 2).getLsbD i =
      if i < 8 then (f 2).getLsbD i else if i - 8 < 8 then (f 1).getLsbD (i - 8) else (f 0).getLsbD (i - 8 - 8) := by
    simp only [BitVec.getLsbD_append]
  rw [lane_eq_extractLsb' _ hx]
  refine BitVec.eq_of_getLsbD_eq fun i hi => ?_
  rw [BitVec.getLsbD_extractLsb', hbit]
  match x, hx with
  | 0, _ | 1, _ | 2, _ => grind

/-- A colour is its three lanes, R highest. -/
theorem append_lanes (c : Colour) : lane c 0 ++ lane c 1 ++ lane c 2 = c := by
  refine BitVec.eq_of_getLsbD_eq fun i hi => ?_
  simp only [lane, BitVec.getLsbD_append]
  grind

/-- Two colours with the same three lanes are one colour. -/
theorem colour_ext {c c' : Colour} (h : ∀ x, x < 3 → lane c x = lane c' x) : c = c' := by
  rw [← append_lanes c, ← append_lanes c', h 0 (by omega), h 1 (by omega), h 2 (by omega)]

/-- The lanes of a colour that PermInv builds are the L[0], L[1], L[2] of R140. -/
theorem lane_permInv (m p0 p1 p2 : Byte) {x : Nat} (hx : x < 3) :
    lane (permInv m p0 p1 p2) x = permInvLane m p0 p1 p2 x :=
  lane_append (permInvLane m p0 p1 p2) hx

/-! ### A legal lane map is a permutation (10_state.md R31, 41_pixel.md R144) -/

theorem laneSel_lt : ∀ m ∈ legalLaneMaps, ∀ k < 3, laneSel m k < 3 := by decide

theorem exists_laneSel_eq : ∀ m ∈ legalLaneMaps, ∀ x < 3, ∃ k < 3, laneSel m k = x := by decide

theorem laneSel_injective : ∀ m ∈ legalLaneMaps, ∀ k < 3, ∀ k' < 3, laneSel m k' = laneSel m k → k' = k := by decide

section
variable {m : Byte} (hm : m ∈ legalLaneMaps)
include hm

/-- The lane that place k selects receives byte k: no later place of `permInvLane` names it again. -/
theorem permInvLane_laneSel (p : Nat → Byte) {k : Nat} (hk : k < 3) :
    permInvLane m (p 0) (p 1) (p 2) (laneSel m k) = p k := by
  have hinj := laneSel_injective m hm k hk
  unfold permInvLane
  split_ifs with h2 h1 h0
  · rw [hinj 2 (by omega) h2]
  · rw [hinj 1 (by omega) h1]
  · rw [hinj 0 (by omega) h0]
  · match k, hk with
    | 0, _ => exact absurd rfl h0
    | 1, _ => exact absurd rfl h1
    | 2, _ => exact absurd rfl h2

/-- Perm undoes PermInv (R144): the stored bytes are the permuted lanes of the colour read from them. -/
theorem permByte_permInv (p : Nat → Byte) {k : Nat} (hk : k < 3) :
    permByte m (permInv m (p 0) (p 1) (p 2)) k = p k := by
  rw [permByte, lane_permInv _ _ _ _ (laneSel_lt m hm k hk), permInvLane_laneSel hm p hk]

/-- PermInv undoes Perm (R144). -/
theorem permInv_permByte (c : Colour) : permInv m (permByte m c 0) (permByte m c 1) (permByte m c 2) = c := by
  refine colour_ext fun x hx => ?_
  obtain ⟨k, hk, rfl⟩ := exists_laneSel_eq m hm x hx
  exact (lane_permInv _ _ _ _ hx).trans (permInvLane_laneSel hm (permByte m c) hk)

/-- A grey colour is one byte in every place, whatever the order (R143). -/
theorem permByte_grey (v : Byte) {k : Nat} (hk : k < 3) : permByte m (v ++ v ++ v) k = v :=
  lane_append (fun _ => v) (laneSel_lt m hm k hk)

end

/-! ### Pixel writes (R141-R143) -/

/-- What the three pixel writes do: store a list of bytes, transmit in auto mode (R140), complete with 0. -/
def State.pixWrite (s : State) (l : List (Nat × Byte)) : State :=
  ((s.setPix (s.pix.writeAll l)).pixAutoTail).completed 0

theorem exec_pixSetPixel {s : State} {i : Nat} (c : Colour) (h : i < s.cfg.npix) :
    exec (.pixSetPixel i c) s = .next (s.pixWrite (s.pixelCells i c)) :=
  if_neg (by omega)

theorem exec_pixSetAll (s : State) (c : Colour) :
    exec (.pixSetAll c) s = .next (s.pixWrite ((List.range s.cfg.npix).flatMap fun i => s.pixelCells i c)) := rfl

theorem exec_pixFillRaw (s : State) (v : Byte) :
    exec (.pixFillRaw v) s = .next (s.pixWrite ((List.range (3 * s.cfg.npix)).map fun a => (a, v))) := rfl

/-- The cells of pixel `i` are the permuted bytes at 3i, 3i + 1, 3i + 2 (R62). -/
theorem State.mem_pixelCells {s : State} {i : Nat} {c : Colour} {p : Nat × Byte} :
    p ∈ s.pixelCells i c ↔ ∃ k < 3, p = (3 * i + k, permByte s.colorOrder c k) := by
  have hcells : s.pixelCells i c = (List.range 3).map fun k => (3 * i + k, permByte s.colorOrder c k) := rfl
  simp [hcells, eq_comm]

/-- The cells of pixel `i` lie in its three bytes. -/
theorem State.fst_of_mem_pixelCells {s : State} {i : Nat} {c : Colour} {p : Nat × Byte} (hp : p ∈ s.pixelCells i c) :
    3 * i ≤ p.1 ∧ p.1 < 3 * i + 3 := by
  obtain ⟨k, hk, rfl⟩ := mem_pixelCells.mp hp
  exact ⟨Nat.le_add_right _ _, Nat.add_lt_add_left hk _⟩

/-- A cell of pixel `j` at the address of byte k of pixel `i` is that byte's. -/
theorem State.snd_of_mem_pixelCells {s : State} {i j k : Nat} {c : Colour} {p : Nat × Byte} (hk : k < 3)
    (hp : p ∈ s.pixelCells j c) (ha : p.1 = 3 * i + k) : p.2 = permByte s.colorOrder c k := by
  obtain ⟨k', hk', rfl⟩ := mem_pixelCells.mp hp
  obtain rfl : k' = k := by simp only at ha; omega
  rfl

theorem State.pixWrite_completes (s : State) (l : List (Nat × Byte)) : Completes (s.pixWrite l) 0 :=
  State.completed_completes _ 0

theorem State.pixWrite_frame (s : State) (l : List (Nat × Byte)) : Frame [.pix, .wire, .port] s (s.pixWrite l) := by
  have hwork : Work ([.pix] ++ pixAutoParts s) s (s.setPix (s.pix.writeAll l)).pixAutoTail := pixWrite_work (by simp)
  refine frame_mono (frame_trans hwork.frame (State.completed_frame _ 0)) ?_
  unfold pixAutoParts
  split <;> simp

/-- The frame transmitted is that of the buffer after the write (R140). -/
theorem State.pixWrite_wired {s : State} (hs : Intact s) (l : List (Nat × Byte)) :
    Wired s (s.pixWrite l) (pixAutoEvents (s.pixWrite l)) := by
  have hevents : pixAutoEvents (s.pixWrite l) = pixAutoEvents (s.setPix (s.pix.writeAll l)) := by
    simp [State.pixWrite, pixAutoEvents, pixFrameEvents, State.pixAuto, State.byte, State.space]
  have hsize : s.groupSize = s.cfg.groupSize := groupSize_of_intact hs
  rw [hevents]
  exact (s.setPix (s.pix.writeAll l)).pixAutoTail_wired hsize

theorem State.pixWrite_byte (s : State) (l : List (Nat × Byte)) (a : Nat) :
    (s.pixWrite l).byte .pix a = ((s.pix.writeAll l).read? a).getD (Config.absentByte .pix a) := by
  rw [State.pixWrite, State.completed_byte, State.pixAutoTail_byte_pix, State.setPix_byte_pix]

/-- A byte the list does not name stays (R28). -/
theorem State.pixWrite_byte_of_not_mem {s : State} {l : List (Nat × Byte)} {a : Nat} (h : ∀ p ∈ l, p.1 ≠ a) :
    (s.pixWrite l).byte .pix a = s.byte .pix a := by
  rw [State.pixWrite_byte, Memory.read?_writeAll_of_not_mem _ _ _ h]
  rfl

/-- A byte of the buffer to which the list gives one value holds it. -/
theorem State.pixWrite_byte_of_mem {s : State} (hs : Intact s) {l : List (Nat × Byte)} {a : Nat} {v : Byte}
    (ha : a < 3 * s.cfg.npix) (hm : (a, v) ∈ l) (hu : ∀ p ∈ l, p.1 = a → p.2 = v) :
    (s.pixWrite l).byte .pix a = v := by
  obtain ⟨x, hx⟩ := Memory.exists_of_range hs.pix ha
  rw [State.pixWrite_byte, Memory.read?_writeAll, hx]
  exact lastWrite_of_mem x hm hu

/-! ### Pixel reads (R149) -/

/-- PIX_GET_PIXEL returns the colour whose permuted lanes are the stored bytes. -/
theorem exec_pixGetPixel {s : State} {i : Nat} {c : Colour} (hm : s.colorOrder ∈ legalLaneMaps) (hi : i < s.cfg.npix)
    (hc : ∀ k, k < 3 → s.byte .pix (3 * i + k) = permByte s.colorOrder c k) :
    exec (.pixGetPixel i) s = .next (s.completed (c.setWidth 32)) := by
  have hread : exec (.pixGetPixel i) s = .next (s.completed
      ((permInv s.colorOrder (s.byte .pix (3 * i + 0)) (s.byte .pix (3 * i + 1)) (s.byte .pix (3 * i + 2))).setWidth 32)) :=
    if_neg (by omega)
  rw [hread, hc 0 (by omega), hc 1 (by omega), hc 2 (by omega), permInv_permByte hm]

/-- After a write that leaves the order, a colour whose permuted lanes were written reads back. -/
theorem pixGetPixel_after_write {s t : State} {i : Nat} {c : Colour} (hs : Intact s) (hi : i < s.cfg.npix)
    (hfr : Frame [.pix, .wire, .port] s t)
    (hc : ∀ k, k < 3 → t.byte .pix (3 * i + k) = permByte s.colorOrder c k) :
    ∃ u, exec (.pixGetPixel i) t = .next u ∧ u.result = c.setWidth 32 := by
  have hcfg : t.cfg = s.cfg := hfr .cfg (by decide)
  have horder : t.colorOrder = s.colorOrder := hfr .colorOrder (by decide)
  refine ⟨_, exec_pixGetPixel (c := c) ?_ ?_ ?_, rfl⟩
  · rw [horder]; exact hs.order
  · rw [hcfg]; exact hi
  · rwa [horder]

/-! ### Counting cells (R147) -/

theorem cellsOf_append (ch : Channel) (a b : List Event) : cellsOf ch (a ++ b) = cellsOf ch a + cellsOf ch b :=
  List.countP_append

/-- An output byte is eight cells of its channel (20_memory.md R64). -/
theorem cellsOf_outCells (ch : Channel) (v : Byte) : cellsOf ch (outCells ch v) = 8 := by
  simp [cellsOf, outCells]

/-- Blocks of `n` cells each, laid end to end. -/
theorem cellsOf_flatMap {α : Type} {ch : Channel} {f : α → List Event} {n : Nat} (h : ∀ a, cellsOf ch (f a) = n)
    (l : List α) : cellsOf ch (l.flatMap f) = n * l.length := by
  induction l with
  | nil => rfl
  | cons a l ih => rw [List.flatMap_cons, cellsOf_append, h, ih, List.length_cons, Nat.mul_succ, Nat.add_comm]

/-- A frame has 24 cells for each pixel and repetition. -/
theorem cellsOf_pixFrameEvents (s : State) : cellsOf .pix (pixFrameEvents s) = 24 * s.cfg.npix * s.cfg.groupSize := by
  have hpixel (i : Nat) : cellsOf .pix (([0, 1, 2] : List Nat).flatMap fun j => outCells .pix (s.byte .pix (3 * i + j)))
      = 8 * 3 := cellsOf_flatMap (fun j => cellsOf_outCells .pix _) _
  have hrepeat (i : Nat) := cellsOf_flatMap (fun _ : Nat => hpixel i) (List.range s.cfg.groupSize)
  have hends : cellsOf .pix [.irqHold true] = 0 ∧ cellsOf .pix [.irqHold false, .frameIdle, .update .pix] = 0 :=
    ⟨rfl, rfl⟩
  rw [pixFrameEvents, cellsOf_append, cellsOf_append, hends.1, hends.2, cellsOf_flatMap hrepeat]
  simp only [List.length_range]
  ring

end Sys2Proof.Machine

/-! ### The obligations of 41_pixel.md -/

open Sys2Proof.Machine

/-- Settles O23: the selectors of a legal map are a permutation of the lanes; the table by evaluation. -/
theorem permBijection : Obligations.PermBijection := by
  refine ⟨fun m hm => permInv_permByte hm, fun m hm x hx => ?_, by decide⟩
  obtain ⟨k, hk, rfl⟩ := exists_laneSel_eq m hm x hx
  exact ⟨k, hk, fun _ => rfl, laneSel_injective m hm k hk⟩

/-- Settles O24: the three cells of the pixel are what is written. -/
theorem pixSetPixelEffect : Obligations.PixSetPixelEffect := by
  intro s i c hs hi
  refine ⟨_, exec_pixSetPixel c hi, s.pixWrite_completes _, s.pixWrite_frame _, State.pixWrite_wired hs _,
    fun k hk => ?_, fun a ha => ?_⟩
  · exact State.pixWrite_byte_of_mem hs (by omega) (State.mem_pixelCells.mpr ⟨k, hk, rfl⟩)
      fun _ hp => State.snd_of_mem_pixelCells hk hp
  · refine State.pixWrite_byte_of_not_mem fun p hp => ?_
    have := State.fst_of_mem_pixelCells hp
    omega

/-- Settles O25: every cell of every pixel is written, with the same byte wherever its address comes again. -/
theorem pixSetAllEffect : Obligations.PixSetAllEffect := by
  intro s c hs
  refine ⟨_, exec_pixSetAll s c, s.pixWrite_completes _, s.pixWrite_frame _, State.pixWrite_wired hs _,
    fun i k hi hk => ?_, fun a ha => ?_⟩
  · refine State.pixWrite_byte_of_mem hs (by omega) ?_ fun p hp => ?_
    · exact List.mem_flatMap.mpr ⟨i, List.mem_range.mpr hi, State.mem_pixelCells.mpr ⟨k, hk, rfl⟩⟩
    · obtain ⟨j, _, hpj⟩ := List.mem_flatMap.mp hp
      exact State.snd_of_mem_pixelCells hk hpj
  · refine State.pixWrite_byte_of_not_mem fun p hp => ?_
    obtain ⟨j, hj, hpj⟩ := List.mem_flatMap.mp hp
    have := List.mem_range.mp hj
    have := State.fst_of_mem_pixelCells hpj
    omega

/-- Settles O26: every address of the buffer is written, always with the same byte. -/
theorem pixFillRawEffect : Obligations.PixFillRawEffect := by
  intro s v hs
  refine ⟨_, exec_pixFillRaw s v, s.pixWrite_completes _, s.pixWrite_frame _, State.pixWrite_wired hs _,
    fun a ha => ?_, fun a ha => ?_⟩
  · refine State.pixWrite_byte_of_mem hs ha ?_ fun p hp _ => ?_
    · exact List.mem_map.mpr ⟨a, List.mem_range.mpr ha, rfl⟩
    · obtain ⟨b, _, rfl⟩ := List.mem_map.mp hp
      rfl
  · refine State.pixWrite_byte_of_not_mem fun p hp => ?_
    obtain ⟨b, hb, rfl⟩ := List.mem_map.mp hp
    exact Nat.ne_of_lt ((List.mem_range.mp hb).trans_le ha)

/-- Settles O28: a transmit of an intact machine is the frame of R147, whose cells are counted block by block. -/
theorem pixTransmitEffect : Obligations.PixTransmitEffect := by
  intro s hs
  have hwired := s.pixTransmit_grew.wired (s.pixTransmit_trace (groupSize_of_intact hs))
  exact ⟨_, rfl, s.pixTransmit.completed_completes 0,
    frame_trans s.pixTransmit_frame (s.pixTransmit.completed_frame 0), hwired, cellsOf_pixFrameEvents s⟩

/-- Settles O29: the colour is PermInv of the stored bytes, which Perm takes back to them. -/
theorem pixGetPixelResult : Obligations.PixGetPixelResult := by
  intro s i hs hi
  have hbytes (k : Nat) (hk : k < 3) := (permByte_permInv hs.order (fun k => s.byte .pix (3 * i + k)) hk).symm
  exact ⟨_, _, exec_pixGetPixel hs.order hi hbytes, s.completed_completes _, s.completed_frame _, hbytes⟩

/-- Settles O30: each write stores the permuted lanes of the colour and leaves the order; a filled pixel is grey. -/
theorem pixelRoundTrip : Obligations.PixelRoundTrip := by
  intro s i c v hs hi
  refine ⟨?_, ?_, ?_⟩
  · obtain ⟨t, ht, _, hfr, _, hbytes, _⟩ := pixSetPixelEffect s i c hs hi
    obtain ⟨u, hu, hres⟩ := pixGetPixel_after_write hs hi hfr hbytes
    exact ⟨t, u, ht, hu, hres⟩
  · obtain ⟨t, ht, _, hfr, _, hbytes, _⟩ := pixSetAllEffect s c hs
    obtain ⟨u, hu, hres⟩ := pixGetPixel_after_write hs hi hfr fun k => hbytes i k hi
    exact ⟨t, u, ht, hu, hres⟩
  · obtain ⟨t, ht, _, hfr, _, hbytes, _⟩ := pixFillRawEffect s v hs
    obtain ⟨u, hu, hres⟩ := pixGetPixel_after_write hs hi hfr fun k hk =>
      (hbytes _ (by omega)).trans (permByte_grey hs.order v hk).symm
    exact ⟨t, u, ht, hu, hres⟩

/-- Settles O27: the six codes are the legal lane maps, and the register is all that is written. -/
theorem pixSetOrderEffect : Obligations.PixSetOrderEffect := by
  intro s m hm
  have hlegal : m ∈ legalLaneMaps := by simpa [legalLaneMaps] using hm
  exact ⟨_, if_pos hlegal, State.completed_completes _ 0,
    frame_trans (colorOrder_work s hlegal).frame (State.completed_frame _ 0), rfl⟩
end

section
/-! The I/O-board unit (42_ioboard.md): a lamp write stores in IOOUT and then transacts in auto mode, a button read
transacts first and then looks at IOIN, and a lamp read returns what was stored. -/

namespace Sys2Proof.Machine

open Sys2Proof.Safety

/-! ### Bits (20_memory.md R63) -/

theorem bitWord_eq_ite (b : Bool) : bitWord b = if b then 1 else 0 := by cases b <;> rfl

/-- Bit `j` of byte `b` is bit 8b + j of its buffer. -/
theorem State.bit_eight_mul_add (s : State) (sp : Space) (b : Nat) {j : Nat} (hj : j < 8) :
    s.bit sp (8 * b + j) = (s.byte sp b).getLsbD j := by
  have hbyte : (8 * b + j) / 8 = b := by omega
  have hbit : (8 * b + j) % 8 = j := by omega
  rw [State.bit, hbyte, hbit]

/-- Each bit of a byte that IO_SET_LAMP_ALL stores is the state (R172). -/
theorem getLsbD_lampByte (v : Bool) {i : Nat} (hi : i < 8) : (if v then 0xFF else 0x00 : Byte).getLsbD i = v := by
  simpa [invMask] using getLsbD_xor_invMask 0 v i hi

/-- A byte that a buffer does not list has the free value (log 25). -/
theorem State.byte_of_not_mem {s : State} {sp : Space} {a : Nat} (h : a ∉ (s.space sp).addrs) :
    s.byte sp a = Config.absentByte sp a := by
  rw [← Memory.read?_isSome_iff, Bool.not_eq_true, Option.isSome_eq_false_iff, Option.isNone_iff_eq_none] at h
  rw [State.byte_eq, h, Option.getD_none]

/-! ### Counting buttons (R174, R175) -/

/-- The population counts of the first `n` bytes of IOIN count its first 8n bits. -/
theorem State.sum_popcount_ioIn (s : State) (n : Nat) :
    ((List.range n).map fun b => popcount (s.byte .ioIn b)).sum = (List.range (8 * n)).countP s.buttonBit := by
  induction n with
  | zero => rfl
  | succ n ih =>
    have hbyte : popcount (s.byte .ioIn n) = ((List.range 8).map (8 * n + ·)).countP s.buttonBit := by
      rw [popcount, List.countP_map]
      exact List.countP_congr fun j hj => by
        rw [Function.comp, State.buttonBit, s.bit_eight_mul_add .ioIn n (List.mem_range.mp hj)]
    rw [List.range_succ, List.map_append, List.sum_append, ih, Nat.mul_succ, List.range_add, List.countP_append,
      ← hbyte, List.map_singleton, List.sum_singleton]

theorem State.countPressed_eq (s : State) : s.countPressed = (List.range (8 * s.cfg.nbIo)).countP s.buttonBit :=
  s.sum_popcount_ioIn s.cfg.nbIo

/-- The indices o .. o+n−1 below `N` are those below `N` that lie in o .. o+n−1. -/
theorem filter_range'_perm (o n N : Nat) :
    ((List.range' o n).filter fun k => decide (k < N)).Perm
      ((List.range N).filter fun k => decide (o ≤ k ∧ k < o + n)) := by
  refine (List.perm_ext_iff_of_nodup (.filter _ List.nodup_range') (.filter _ List.nodup_range)).mpr fun k => ?_
  simp only [List.mem_filter, List.mem_range'_1, List.mem_range, decide_eq_true_eq]
  exact and_comm

/-- Clipping the range counts the bits of the buffer that lie in it (R175). -/
theorem State.countPressedRange_eq (s : State) (o n : Nat) :
    s.countPressedRange o n =
      ((List.range (8 * s.cfg.nbIo)).filter fun k => decide (o ≤ k ∧ k < o + n)).countP s.buttonBit := by
  have hrange : s.countPressedRange o n =
      (List.range' o n).countP fun k => s.buttonBit k && decide (k < 8 * s.cfg.nbIo) := by
    rw [List.range'_eq_map_range, List.countP_map]
    exact List.countP_congr fun j _ => by rw [Bool.and_comm]; rfl
  rw [hrange, ← List.countP_filter]
  exact (filter_range'_perm o n _).countP_eq _

/-! ### Accepted commands -/

section
variable {s : State} {k b : Nat}

theorem exec_ioSetLamp (v : Bool) (h : k < 8 * s.cfg.nbIo) :
    exec (.ioSetLamp k v) s = .next ((s.setLampBit k v).ioAutoPost.completed 0) :=
  if_neg (Nat.not_le.mpr h)

theorem exec_ioRawWrite (v : Byte) (h : b < s.cfg.nbIo) :
    exec (.ioRawWrite b v) s = .next ((s.setIoOut (s.ioOut.write b v)).ioAutoPost.completed 0) :=
  if_neg (Nat.not_le.mpr h)

theorem exec_ioGetButton (h : k < 8 * s.cfg.nbIo) :
    exec (.ioGetButton k) s = .next (s.ioAutoPre.completed (bitWord (s.ioAutoPre.buttonBit k))) :=
  if_neg (Nat.not_le.mpr h)

theorem exec_ioRawRead (h : b < s.cfg.nbIo) :
    exec (.ioRawRead b) s = .next (s.ioAutoPre.completed ((s.ioAutoPre.byte .ioIn b).setWidth 32)) :=
  if_neg (Nat.not_le.mpr h)

theorem exec_ioGetLamp (h : k < 8 * s.cfg.nbIo) :
    exec (.ioGetLamp k) s = .next (s.completed (bitWord (s.lampBit k))) :=
  if_neg (Nat.not_le.mpr h)

end

/-! ### Lamp bytes written (R172, R176) -/

/-- The lamp bytes after IO_SET_LAMP_ALL: every byte of the buffer is written, no other. -/
theorem State.setLampAll_byte {s : State} (hs : Intact s) (x : Byte) (a : Nat) :
    (s.setIoOut (s.ioOut.writeAll ((List.range s.cfg.nbIo).map fun b => (b, x)))).byte .ioOut a =
      if a < s.cfg.nbIo then x else s.byte .ioOut a := by
  rw [State.setIoOut_byte_ioOut]
  split
  case isTrue ha =>
    obtain ⟨y, hy⟩ := Memory.exists_of_range hs.ioOut ha
    rw [Memory.read?_writeAll_map _ _ (fun b => b) (fun _ => x) a a (List.mem_range.mpr ha) rfl fun _ _ _ => rfl, hy]
    rfl
  case isFalse ha =>
    rw [Memory.read?_writeAll_of_not_mem]
    · rfl
    · intro p hp
      obtain ⟨b, hb, rfl⟩ := List.mem_map.mp hp
      exact fun hba => ha (hba ▸ List.mem_range.mp hb)

/-- The lamp bytes after IO_RAW_WRITE to a board of the chain. -/
theorem State.rawWrite_byte {s : State} (hs : Intact s) {b : Nat} (hb : b < s.cfg.nbIo) (x : Byte) (a : Nat) :
    (s.setIoOut (s.ioOut.write b x)).byte .ioOut a = if b = a then x else s.byte .ioOut a := by
  rw [State.setIoOut_byte_ioOut, Memory.read?_write]
  split
  case isTrue ha =>
    obtain ⟨y, hy⟩ := Memory.exists_of_range hs.ioOut hb
    rw [← ha, hy]
    rfl
  case isFalse => rfl

/-! ### Transactions seen from the answer (R170, R182) -/

/-- A RESULT takes nothing away from the transaction before it. -/
theorem State.ioTransact_completed {s : State} (hs : Intact s) (v : Word) :
    IoTransacted s (s.ioTransact.completed v) :=
  have h := s.ioTransact_spec hs.ioIn
  ⟨h.wire, h.ioIn, h.source⟩

/-- An IoTransact stores nothing beyond the boards of the chain. -/
theorem State.ioTransact_byte_of_le {s : State} (hs : Intact s) {a : Nat} (ha : s.cfg.nbIo ≤ a) :
    s.ioTransact.byte .ioIn a = s.byte .ioIn a := by
  have hnot : a ∉ s.ioIn.addrs := by rw [hs.ioIn, List.mem_range]; omega
  have hnot' : a ∉ s.ioTransact.ioIn.addrs := by rwa [State.ioTransact_ioIn_addrs]
  rw [State.byte_of_not_mem (sp := .ioIn) hnot', State.byte_of_not_mem (sp := .ioIn) hnot]

/-- With or without the transaction, an auto unit changes no more than an IoTransact does. -/
theorem frame_of_ioAuto {s t : State} (h : IoAuto s t) : Frame (.port :: ioTransactParts) s t := by
  unfold IoAuto at h
  split at h
  · obtain ⟨_, hfr⟩ := h
    exact hfr
  · exact frame_mono h (by simp)

/-- A lamp reads back after a write, whether a transaction came between or not (R179). -/
theorem ioGetLamp_after_write {s p t : State} {k : Nat} {v : Bool} (hfr : Frame [.ioOut] s p) (hauto : IoAuto p t)
    (hk : k < 8 * s.cfg.nbIo) (hlamp : p.lampBit k = v) :
    ∃ u, exec (.ioGetLamp k) t = .next u ∧ u.result = if v then 1 else 0 := by
  have hpt := frame_of_ioAuto hauto
  have hcfg : t.cfg = s.cfg := (hpt .cfg (by decide)).trans (hfr .cfg (by decide))
  have hioOut : t.ioOut = p.ioOut := hpt .ioOut (by decide)
  have hbit : t.lampBit k = v := by
    rw [← hlamp]
    simp only [State.lampBit, State.bit, State.byte, State.space, hioOut]
  refine ⟨_, exec_ioGetLamp (hcfg ▸ hk), ?_⟩
  rw [hbit]
  exact bitWord_eq_ite v

end Sys2Proof.Machine

/-! ### The obligations of 42_ioboard.md -/

open Sys2Proof.Machine

/-- Settles O31: the middle state is the one with the lamp bit written. -/
theorem ioSetLampEffect : Obligations.IoSetLampEffect := by
  intro s k v hs hk
  have hlamp (k' : Nat) := s.setLampBit_lampBit k v k' (Memory.exists_of_range hs.ioOut (by omega))
  exact ⟨s.setLampBit k v, _, exec_ioSetLamp v hk, State.completed_completes _ 0, s.setLampBit_frame k v,
    State.ioAutoPost_auto _ 0 hs.ioIn, by rw [hlamp, if_pos rfl], fun k' hne => by rw [hlamp, if_neg hne]⟩

/-- Settles O32: every board's byte is written, always with the same value. -/
theorem ioSetLampAllEffect : Obligations.IoSetLampAllEffect := by
  intro s v hs
  refine ⟨_, _, rfl, State.completed_completes _ 0, s.setIoOut_frame _, State.ioAutoPost_auto _ 0 hs.ioIn,
    fun b hb => ?_, fun b hb => ?_⟩
  · rw [State.setLampAll_byte hs, if_pos hb]
  · rw [State.setLampAll_byte hs, if_neg (Nat.not_lt.mpr hb)]

/-- Settles O33: the middle state is the one with the board's byte written. -/
theorem ioRawWriteEffect : Obligations.IoRawWriteEffect := by
  intro s b v hs hb
  have hbyte := State.rawWrite_byte hs hb v
  exact ⟨_, _, exec_ioRawWrite v hb, State.completed_completes _ 0, s.setIoOut_frame _,
    State.ioAutoPost_auto _ 0 hs.ioIn, by rw [hbyte, if_pos rfl], fun b' hne => by rw [hbyte, if_neg hne.symm]⟩

/-- Settles O34: the answer's IOIN is that of the state after the transaction, from which RESULT was taken. -/
theorem ioReadResults : Obligations.IoReadResults :=
  fun s hs =>
    ⟨fun _ hk => ⟨_, exec_ioGetButton hk, s.ioAutoPre_auto _ hs.ioIn, bitWord_eq_ite _, rfl⟩,
      fun _ hb => ⟨_, exec_ioRawRead hb, s.ioAutoPre_auto _ hs.ioIn, rfl, rfl⟩⟩

/-- Settles O35: the bytes' population counts add up to the count of the bits. -/
theorem ioCountPressedResult : Obligations.IoCountPressedResult := by
  intro s hs
  have hcount := s.ioAutoPre.countPressed_eq
  rw [State.ioAutoPre_cfg] at hcount
  refine ⟨_, _, rfl, s.ioAutoPre_auto _ hs.ioIn, State.completed_completes _ _, hcount, ?_⟩
  calc s.ioAutoPre.countPressed
      ≤ (List.range (8 * s.cfg.nbIo)).length := hcount ▸ List.countP_le_length
    _ = 8 * s.cfg.nbIo := List.length_range

/-- Settles O36: the clipped range is the part of the buffer's bits that lies in it. -/
theorem ioCountPressedRangeResult : Obligations.IoCountPressedRangeResult := by
  intro s o n hs
  have hcount := s.ioAutoPre.countPressedRange_eq o n
  rw [State.ioAutoPre_cfg] at hcount
  exact ⟨_, _, rfl, s.ioAutoPre_auto _ hs.ioIn, State.completed_completes _ _, hcount⟩

/-- Settles O38: one IoTransact, then RESULT. -/
theorem ioTransactEffect : Obligations.IoTransactEffect :=
  fun s hs => ⟨_, rfl, s.ioTransact.completed_completes 0, State.ioTransact_completed hs 0,
    frame_mono (frame_trans s.ioTransact_frame (s.ioTransact.completed_frame 0)) (by decide),
    fun _ ha => State.ioTransact_byte_of_le hs ha⟩

/-- Settles O40: each write puts the bit in the middle state, which the transaction leaves. -/
theorem lampRoundTrip : Obligations.LampRoundTrip := by
  intro s k b j v x hs hk hb hj
  refine ⟨?_, ?_, ?_⟩
  · obtain ⟨p, t, ht, _, hfr, hauto, hbytes, _⟩ := ioSetLampAllEffect s v hs
    have hlamp : p.lampBit k = v := by
      rw [State.lampBit, State.bit, hbytes (k / 8) (by omega), getLsbD_lampByte v (by omega)]
    obtain ⟨u, hu, hres⟩ := ioGetLamp_after_write hfr hauto hk hlamp
    exact ⟨t, u, ht, hu, hres⟩
  · obtain ⟨p, t, ht, _, hfr, hauto, hlamp, _⟩ := ioSetLampEffect s k v hs hk
    obtain ⟨u, hu, hres⟩ := ioGetLamp_after_write hfr hauto hk hlamp
    exact ⟨t, u, ht, hu, hres⟩
  · obtain ⟨p, t, ht, _, hfr, hauto, hbyte, _⟩ := ioRawWriteEffect s b x hs hb
    have hlamp : p.lampBit (8 * b + j) = x.getLsbD j := by rw [State.lampBit, p.bit_eight_mul_add .ioOut b hj, hbyte]
    obtain ⟨u, hu, hres⟩ := ioGetLamp_after_write hfr hauto (by omega) hlamp
    exact ⟨t, u, ht, hu, hres⟩

/-- Settles O37: the answer is the state with RESULT set. -/
theorem ioGetLampResult : Obligations.IoGetLampResult :=
  fun s _ hk => ⟨_, exec_ioGetLamp hk, s.completed_frame _, bitWord_eq_ite _, rfl⟩
end

section
/-! The input-chain unit (43_inputchain.md): IN_TRANSACT stores the drawn bits in INB, and a read transacts first in auto
mode and then looks at INB. -/

namespace Sys2Proof.Machine

open Sys2Proof.Safety

/-! ### Accepted commands (R202, R203) -/

section
variable {s : State} {k b : Nat}

theorem exec_inReadBit (h : k < 8 * s.cfg.nbIn) :
    exec (.inReadBit k) s = .next (s.inAutoPre.completed (bitWord (s.inAutoPre.bit .inBuf k))) :=
  if_neg (Nat.not_le.mpr h)

theorem exec_inReadByte (h : b < s.cfg.nbIn) :
    exec (.inReadByte b) s = .next (s.inAutoPre.completed ((s.inAutoPre.byte .inBuf b).setWidth 32)) :=
  if_neg (Nat.not_le.mpr h)

end

/-! ### The transaction seen from the answer (R200) -/

/-- A RESULT takes nothing away from the transaction before it. -/
theorem State.inTransact_completed {s : State} (hs : Intact s) (v : Word) :
    InTransacted s (s.inTransact.completed v) :=
  have h := s.inTransact_spec hs.inBuf
  ⟨h.wire, h.inBuf, h.source⟩

/-- An InTransact stores nothing beyond the boards of the chain. -/
theorem State.inTransact_byte_of_le {s : State} (hs : Intact s) {a : Nat} (ha : s.cfg.nbIn ≤ a) :
    s.inTransact.byte .inBuf a = s.byte .inBuf a := by
  have hnot : a ∉ s.inBuf.addrs := by rw [hs.inBuf, List.mem_range]; omega
  have hnot' : a ∉ s.inTransact.inBuf.addrs := by rwa [State.inTransact_inBuf_addrs]
  rw [State.byte_of_not_mem (sp := .inBuf) hnot', State.byte_of_not_mem (sp := .inBuf) hnot]

end Sys2Proof.Machine

/-! ### The obligations of 43_inputchain.md -/

open Sys2Proof.Machine

/-- Settles O41: one InTransact, then RESULT. -/
theorem inTransactEffect : Obligations.InTransactEffect := by
  intro s hs
  have hframe := frame_trans s.inTransact_frame (s.inTransact.completed_frame 0)
  exact ⟨_, rfl, s.inTransact.completed_completes 0, State.inTransact_completed hs 0,
    frame_mono hframe (by decide), fun _ ha => State.inTransact_byte_of_le hs ha⟩

/-- Settles O42: the answer's INB is that of the state after the transaction, from which RESULT was taken. -/
theorem inReadResults : Obligations.InReadResults := by
  intro s hs
  constructor
  · intro k hk
    exact ⟨_, exec_inReadBit hk, s.inAutoPre_auto _ hs.inBuf, bitWord_eq_ite _, rfl⟩
  · intro b hb
    exact ⟨_, exec_inReadByte hb, s.inAutoPre_auto _ hs.inBuf, State.completed_completes _ _⟩
end

section
/-! The digit chain and its groups (44_digits.md): every command that shows something writes the digit buffer and then, in
auto mode, transmits it; a group command gives each position of its group one byte and leaves the rest of the chain. -/

namespace Sys2Proof.Machine

open Sys2Proof.Safety

/-! ### Digit writes (R215) -/

/-- What every digit write does: store the buffer, transmit in auto mode, complete with `v`. -/
def State.digWrite (s : State) (m : Memory) (v : Word) : State := ((s.setDig m).digAutoTail).completed v

theorem State.digWrite_completes (s : State) (m : Memory) (v : Word) : Completes (s.digWrite m v) v :=
  State.completed_completes _ v

theorem State.digWrite_frame (s : State) (m : Memory) (v : Word) : Frame [.dig, .wire, .port] s (s.digWrite m v) := by
  have htail := frame_trans (s.setDig_frame m) (s.setDig m).digAutoTail_work.frame
  refine frame_mono (frame_trans htail (State.completed_frame _ v)) ?_
  unfold digAutoParts
  split <;> simp

/-- The chain transmitted is that of the buffer after the write. -/
theorem State.digWrite_wired (s : State) (m : Memory) (v : Word) :
    Wired s (s.digWrite m v) (digAutoEvents (s.digWrite m v)) := by
  have hevents : digAutoEvents (s.digWrite m v) = digAutoEvents (s.setDig m) := by
    simp [State.digWrite, digAutoEvents, digFrameEvents, State.digAuto, State.byte, State.space]
  rw [hevents]
  exact (s.setDig m).digAutoTail_wired

theorem State.digWrite_chase (s : State) (m : Memory) (v : Word) : (s.digWrite m v).chase = s.chase :=
  s.digWrite_frame m v .chase (by decide)

theorem State.digWrite_byte (s : State) (m : Memory) (v : Word) (a : Nat) :
    (s.digWrite m v).byte .dig a = (m.read? a).getD (Config.absentByte .dig a) := by
  rw [State.digWrite, State.completed_byte, State.digAutoTail_byte_dig, State.setDig_byte_dig]

/-- A byte that the new buffer has from the old one stays. -/
theorem State.digWrite_byte_of_read? {s : State} {m : Memory} {a : Nat} (h : m.read? a = s.dig.read? a) (v : Word) :
    (s.digWrite m v).byte .dig a = s.byte .dig a := by
  rw [State.digWrite_byte, h]
  rfl

/-- A byte of the chain that the new buffer gives the value `x` holds it. -/
theorem State.digWrite_byte_of_map {s : State} (hs : Intact s) {m : Memory} {a : Nat} {x : Byte} (ha : a < s.cfg.ndig)
    (h : m.read? a = (s.dig.read? a).map fun _ => x) (v : Word) : (s.digWrite m v).byte .dig a = x := by
  obtain ⟨y, hy⟩ := Memory.exists_of_range hs.dig ha
  rw [State.digWrite_byte, h, hy]
  rfl

/-! ### Accepted commands of the chain (R213, R214, R218) -/

section
variable {s : State} {p : Nat}

theorem exec_digSetDigit (d : Nat) (dp : Bool) (h : p < s.cfg.ndig) :
    exec (.digSetDigit p d dp) s = .next (s.digWrite (s.dig.write p (enc s.cfg d dp)) 0) :=
  if_neg (Nat.not_le.mpr h)

theorem exec_digCopySection {f d n : Nat} (hfd : f + n ≤ d) (hd : d + n ≤ s.cfg.ndig) :
    exec (.digCopySection f d n) s = .next (s.digWrite (s.dig.writeAll (s.copyCells f d n)) 0) :=
  (if_neg (Nat.not_lt.mpr hfd)).trans (if_neg (Nat.not_lt.mpr hd))

theorem exec_digGetRaw (h : p < s.cfg.ndig) :
    exec (.digGetRaw p) s = .next (s.completed ((s.byte .dig p).setWidth 32)) :=
  if_neg (Nat.not_le.mpr h)

end

/-- Every destination address is written once, with the source byte as it was (R214). -/
theorem State.read?_writeAll_copyCells (s : State) (f d : Nat) {n j : Nat} (hj : j < n) :
    (s.dig.writeAll (s.copyCells f d n)).read? (d + j) = (s.dig.read? (d + j)).map fun _ => s.byte .dig (f + j) := by
  refine Memory.read?_writeAll_map _ _ (d + ·) (fun j => s.byte .dig (f + j)) _ j (List.mem_range.mpr hj) rfl ?_
  intro k _ hk
  rw [Nat.add_left_cancel hk]

theorem State.read?_writeAll_copyCells_outside (s : State) (f : Nat) {d n a : Nat} (ha : a < d ∨ d + n ≤ a) :
    (s.dig.writeAll (s.copyCells f d n)).read? a = s.dig.read? a := by
  refine Memory.read?_writeAll_of_not_mem _ _ _ fun p hp => ?_
  obtain ⟨j, hj, rfl⟩ := List.mem_map.mp hp
  have hjn := List.mem_range.mp hj
  simp only
  omega

/-- A transmit has eight cells for each digit (R217). -/
theorem cellsOf_digFrameEvents (s : State) : cellsOf .dig (digFrameEvents s) = 8 * s.cfg.ndig := by
  have hends : cellsOf .dig [.latchPulse .digLat, .update .dig] = 0 := rfl
  rw [digFrameEvents, cellsOf_append, hends, cellsOf_flatMap fun _ => cellsOf_outCells .dig _, List.length_range,
    Nat.add_zero]

/-! ### What a group command stores (R219) -/

/-- From `m` to `m'` every listed position `i` of the group has got the byte `f i`, and nothing outside it changed. -/
structure Shows (g : GroupCfg) (f : Nat → Byte) (m m' : Memory) : Prop where
  at_position : ∀ i, i < g.size → m'.read? (gpos g i) = (m.read? (gpos g i)).map fun _ => f i
  outside : ∀ a, ¬ inGroup g a → m'.read? a = m.read? a

theorem groupFill_shows (g : GroupCfg) (m : Memory) (v : Byte) : Shows g (fun _ => v) m (groupFill g m v) :=
  ⟨read?_groupFill g m v, read?_groupFill_outside g m v⟩

theorem showSymbolDig_shows (c : Config) (g : GroupCfg) (m : Memory) {k : Nat} (hk : k ≤ 4) :
    Shows g (symbolByte c g.size k) m (showSymbolDig c g m k) :=
  ⟨fun i hi => read?_showSymbolDig c g m k i hk hi, read?_showSymbolDig_outside c g m k⟩

/-- The byte position `i` of a group of `S` positions shows for a number (R221, R222, R224). -/
def numberByte (c : Config) (S v dpPos i : Nat) : Byte :=
  if hasPoint S dpPos && decide (i + 1 = dpPos) then numberBase c S v dpPos i ||| 0x01 else numberBase c S v dpPos i

theorem showNumberDig_shows (c : Config) (g : GroupCfg) (m : Memory) (v dpPos : Nat) :
    Shows g (numberByte c g.size v dpPos) m (showNumberDig c g m v dpPos) :=
  ⟨read?_showNumberDig c g m v dpPos, read?_showNumberDig_outside c g m v dpPos⟩

theorem getLsbD_numberByte_eq (c : Config) (S v dpPos i : Nat) {j : Nat} (hj : j < 8) :
    (numberByte c S v dpPos i).getLsbD j = numberBit c S v dpPos i j :=
  getLsbD_numberByte c S v dpPos i j hj

theorem showNumberCount_eq (g : GroupCfg) (v dpPos : Nat) :
    showNumberCount g v dpPos = max (digitCount g.size v) dpPos := by
  rw [showNumberCount, length_showDigits]

/-- A write at a position of the group after all positions got their bytes: the later byte stands there. -/
theorem Shows.write_position {g : GroupCfg} {f : Nat → Byte} {m m' : Memory} (h : Shows g f m m') {n : Nat}
    (hn : n < g.size) (x : Byte) : Shows g (fun i => if i = n then x else f i) m (groupWrite g m' n x) := by
  have hwrite : groupWrite g m' n x = m'.write (gpos g n) x := if_pos hn
  rw [hwrite]
  constructor
  · intro i hi
    rw [Memory.read?_write, h.at_position i hi]
    by_cases hin : i = n
    · rw [if_pos (congrArg (gpos g) hin.symm), Option.map_map, if_pos hin]
      rfl
    · have hne : ¬ gpos g n = gpos g i := by simp only [gpos]; omega
      rw [if_neg hne, if_neg hin]
  · intro a ha
    have hne : ¬ gpos g n = a := by
      rintro rfl
      exact ha ⟨Nat.le_add_right _ _, Nat.add_lt_add_left hn _⟩
    rw [Memory.read?_write, if_neg hne, h.outside a ha]

/-- The byte position `i` of a group of `S` positions shows for a signed number, the sign at the position after the last
one used (R225). -/
def signedByte (c : Config) (S : Nat) (v : Int) (dpPos i : Nat) : Byte :=
  if v < 0 ∧ i = max (digitCount S v.natAbs) dpPos then c.segDash else numberByte c S v.natAbs dpPos i

theorem showSignedDig_shows (c : Config) (g : GroupCfg) (m : Memory) (v : Int) (dpPos : Nat) :
    Shows g (signedByte c g.size v dpPos) m (showSignedDig c g m v dpPos) := by
  have hnumber := showNumberDig_shows c g m v.natAbs dpPos
  unfold showSignedDig signedByte
  rw [showNumberCount_eq]
  split
  case isTrue h =>
    obtain ⟨hneg, hfits⟩ := h
    simp only [hneg, true_and]
    exact hnumber.write_position hfits c.segDash
  case isFalse h =>
    refine ⟨fun i hi => ?_, hnumber.outside⟩
    have hno : ¬ (v < 0 ∧ i = max (digitCount g.size v.natAbs) dpPos) := fun ⟨hneg, hin⟩ => h ⟨hneg, hin ▸ hi⟩
    rw [hnumber.at_position i hi, if_neg hno]

/-- RESULT of GRP_SHOW_SIGNED is 1 for a negative number whose sign has no position left (R225). -/
theorem bitWord_signOverflow (g : GroupCfg) (v : Int) (dpPos : Nat) :
    bitWord (signOverflow g v dpPos) = if v < 0 ∧ g.size ≤ max (digitCount g.size v.natAbs) dpPos then 1 else 0 := by
  rw [bitWord_eq_ite, signOverflow, showNumberCount_eq]
  simp only [Bool.and_eq_true, Bool.not_eq_true', decide_eq_true_eq, decide_eq_false_iff_not, Nat.not_lt]

/-! ### Accepted commands of the groups -/

section
variable {s : State} {g : Nat} {gc : GroupCfg}

/-- Every group lies in the chain (00_scope.md R7). -/
theorem group_end_le_ndig (hs : Intact s) (hg : s.cfg.groups[g]? = some gc) : gc.start + gc.size ≤ s.cfg.ndig := by
  have hl := hs.legal
  simp only [Config.legal, Config.unitsLegal, Bool.and_eq_true, List.all_eq_true] at hl
  obtain ⟨⟨_, ⟨⟨⟨⟨⟨⟨_, hgroups⟩, _⟩, _⟩, _⟩, _⟩, _⟩, _⟩, _⟩ := hl
  exact (of_decide_eq_true (hgroups gc (List.mem_of_getElem? hg))).2

/-- On an intact machine the UNIT of a configured group is in range (30_encoding.md R92). -/
theorem withGroup_of_intact (hs : Intact s) (hg : s.cfg.groups[g]? = some gc) (f : GroupCfg → Answer) :
    withGroup g s (fun gc _ => f gc) = f gc := by
  obtain ⟨ch, hch⟩ := getElem?_of_length hs.chase hg
  exact withGroup_some _ hg hch

theorem exec_grpShowNumber (hs : Intact s) (hg : s.cfg.groups[g]? = some gc) (dpPos v : Nat) :
    exec (.grpShowNumber g dpPos v) s =
      .next (s.digWrite (showNumberDig s.cfg gc s.dig v dpPos) (BitVec.ofNat 32 (showNumberCount gc v dpPos))) :=
  withGroup_of_intact hs hg _

theorem exec_grpShowSigned (hs : Intact s) (hg : s.cfg.groups[g]? = some gc) (dpPos : Nat) (v : Int) :
    exec (.grpShowSigned g dpPos v) s =
      .next (s.digWrite (showSignedDig s.cfg gc s.dig v dpPos) (bitWord (signOverflow gc v dpPos))) :=
  withGroup_of_intact hs hg _

theorem exec_grpShowSymbol (hs : Intact s) (hg : s.cfg.groups[g]? = some gc) {k : Nat} (hk : k ≤ 4) :
    exec (.grpShowSymbol g k) s = .next (s.digWrite (showSymbolDig s.cfg gc s.dig k) 0) :=
  (withGroup_of_intact hs hg _).trans (if_neg (Nat.not_lt.mpr hk))

theorem exec_grpChase6 (hs : Intact s) (hg : s.cfg.groups[g]? = some gc) {q : Nat} (hq : q < 6) :
    exec (.grpChase6 g q) s = .next (s.digWrite (groupFill gc s.dig s.cfg.chase6[q]) 0) :=
  (withGroup_of_intact hs hg _).trans (dif_pos hq)

theorem exec_grpChase8 (hs : Intact s) (hg : s.cfg.groups[g]? = some gc) {q : Nat} (hq : q < 8) :
    exec (.grpChase8 g q) s = .next (s.digWrite (groupFill gc s.dig s.cfg.chase8[q]) 0) :=
  (withGroup_of_intact hs hg _).trans (dif_pos hq)

/-- What a chase step does: a group fill with `x` on the machine whose group has the counters `c`. -/
def State.chaseStep (s : State) (g : Nat) (gc : GroupCfg) (c : ChaseState) (x : Byte) : State :=
  (s.setChase g c).digWrite (groupFill gc s.dig x) 0

/-- The entry shown is the one at the counter before it advances (R230). -/
theorem exec_grpChase6Step {ch : ChaseState} (hg : s.cfg.groups[g]? = some gc) (hch : s.chase[g]? = some ch) :
    exec (.grpChase6Step g) s =
      .next (s.chaseStep g gc { ch with pos6 := ch.pos6 + 1 } s.cfg.chase6[ch.pos6.val]) :=
  withGroup_some _ hg hch

/-- The same for the other counter (R232). -/
theorem exec_grpChase8Step {ch : ChaseState} (hg : s.cfg.groups[g]? = some gc) (hch : s.chase[g]? = some ch) :
    exec (.grpChase8Step g) s =
      .next (s.chaseStep g gc { ch with pos8 := ch.pos8 + 1 } s.cfg.chase8[ch.pos8.val]) :=
  withGroup_some _ hg hch

/-! ### What a group command leaves behind -/

/-- A digit write that shows bytes on a group: its outcome, its frame, the wire, and the chain byte by byte. -/
theorem State.digWrite_of_shows {f : Nat → Byte} {m : Memory} (hs : Intact s) (hg : s.cfg.groups[g]? = some gc)
    (h : Shows gc f s.dig m) (v : Word) :
    Completes (s.digWrite m v) v ∧ Frame [.dig, .wire, .port] s (s.digWrite m v) ∧
      Wired s (s.digWrite m v) (digAutoEvents (s.digWrite m v)) ∧
      (∀ i, i < gc.size → (s.digWrite m v).byte .dig (gc.start + i) = f i) ∧
      ∀ a, ¬ inGroup gc a → (s.digWrite m v).byte .dig a = s.byte .dig a := by
  have hend := group_end_le_ndig hs hg
  exact ⟨s.digWrite_completes m v, s.digWrite_frame m v, s.digWrite_wired m v,
    fun i hi => State.digWrite_byte_of_map hs (Nat.lt_of_lt_of_le (Nat.add_lt_add_left hi _) hend) (h.at_position i hi) v,
    fun a ha => State.digWrite_byte_of_read? (h.outside a ha) v⟩

/-- A chase step: the fill on the group, and this group's counters alone replaced (R230, R232). -/
theorem State.chaseStep_effect (hs : Intact s) (hg : s.cfg.groups[g]? = some gc) (c : ChaseState) (x : Byte) :
    Completes (s.chaseStep g gc c x) 0 ∧ Frame [.dig, .chase, .wire, .port] s (s.chaseStep g gc c x) ∧
      Wired s (s.chaseStep g gc c x) (digAutoEvents (s.chaseStep g gc c x)) ∧
      (∀ i, i < gc.size → (s.chaseStep g gc c x).byte .dig (gc.start + i) = x) ∧
      (∀ a, ¬ inGroup gc a → (s.chaseStep g gc c x).byte .dig a = s.byte .dig a) ∧
      (s.chaseStep g gc c x).chase[g]? = some c ∧
      ∀ g', g' ≠ g → (s.chaseStep g gc c x).chase[g']? = s.chase[g']? := by
  have hs' : Intact (s.setChase g c) := (s.setChase_work g c).intact hs
  obtain ⟨hdone, hframe, hwired, hbyte, houtside⟩ := State.digWrite_of_shows hs' hg (groupFill_shows gc s.dig x) 0
  have hchase : (s.chaseStep g gc c x).chase = s.chase.set g c := State.digWrite_chase _ _ 0
  have hlt : g < s.chase.length := hs.chase ▸ (List.getElem?_eq_some_iff.mp hg).1
  refine ⟨hdone, frame_mono (frame_trans (s.setChase_frame g c) hframe) (by decide), hwired, hbyte,
    fun a ha => (houtside a ha).trans (s.setChase_byte g c .dig a), ?_, fun g' hne => ?_⟩
  · rw [hchase, List.getElem?_set_self hlt]
  · rw [hchase, List.getElem?_set_ne hne.symm]

end

end Sys2Proof.Machine

/-! ### The obligations of 44_digits.md -/

open Sys2Proof.Machine

/-- Settles O43: one byte is written, with the encoded digit. -/
theorem digSetDigitEffect : Obligations.DigSetDigitEffect := by
  intro s p d dp hs hp
  have hread := s.dig.read?_write p (enc s.cfg d dp)
  refine ⟨_, exec_digSetDigit d dp hp, s.digWrite_completes _ 0, s.digWrite_frame _ 0, s.digWrite_wired _ 0,
    fun j hj => ?_, fun a ha => State.digWrite_byte_of_read? (by rw [hread, if_neg ha.symm]) 0⟩
  rw [State.digWrite_byte_of_map hs hp (by rw [hread, if_pos rfl]), getLsbD_enc _ _ _ _ hj]

/-- Settles O44: the cells written are the destination's, with the source's bytes before the command. -/
theorem digCopySectionEffect : Obligations.DigCopySectionEffect := by
  intro s f d n hs hfd hd
  exact ⟨_, exec_digCopySection hfd hd, s.digWrite_completes _ 0, s.digWrite_frame _ 0, s.digWrite_wired _ 0,
    fun j hj => State.digWrite_byte_of_map hs (by omega) (s.read?_writeAll_copyCells f d hj) 0,
    fun a ha => State.digWrite_byte_of_read? (s.read?_writeAll_copyCells_outside f ha) 0⟩

/-- Settles O45: the transmit, then RESULT. -/
theorem digTransmitEffect : Obligations.DigTransmitEffect :=
  fun s _ => ⟨_, rfl, s.digTransmit.completed_completes 0,
    frame_trans s.digTransmit_frame (s.digTransmit.completed_frame 0), s.digTransmit_grew.wired s.digTransmit_trace,
    cellsOf_digFrameEvents s⟩

/-- Settles O48: the number's bytes on the group, read bit by bit. -/
theorem grpShowNumberEffect : Obligations.GrpShowNumberEffect := by
  intro s g dpPos v gc hs hg
  obtain ⟨hdone, hframe, hwired, hbyte, houtside⟩ :=
    State.digWrite_of_shows hs hg (showNumberDig_shows s.cfg gc s.dig v dpPos)
      (BitVec.ofNat 32 (showNumberCount gc v dpPos))
  refine ⟨_, exec_grpShowNumber hs hg dpPos v, ?_, hframe, hwired, fun i j hi hj => ?_, houtside⟩
  · rwa [← showNumberCount_eq]
  · rw [hbyte i hi]
    exact getLsbD_numberByte_eq s.cfg gc.size v dpPos i hj

/-- Settles O49: the number's bytes with the dash over the one after them, read bit by bit. -/
theorem grpShowSignedEffect : Obligations.GrpShowSignedEffect := by
  intro s g dpPos v gc hs hg
  obtain ⟨hdone, hframe, hwired, hbyte, houtside⟩ :=
    State.digWrite_of_shows hs hg (showSignedDig_shows s.cfg gc s.dig v dpPos) (bitWord (signOverflow gc v dpPos))
  refine ⟨_, _, exec_grpShowSigned hs hg dpPos v, rfl, ?_, hframe, hwired, fun i j hi hj => ?_, houtside⟩
  · rwa [← bitWord_signOverflow]
  · rw [hbyte i hi, signedByte]
    split
    · rfl
    · exact getLsbD_numberByte_eq s.cfg gc.size v.natAbs dpPos i hj

/-- Settles O50: the symbol's bytes on the group. -/
theorem grpShowSymbolEffect : Obligations.GrpShowSymbolEffect :=
  fun s _ _ gc hs hg hk =>
    ⟨_, exec_grpShowSymbol hs hg hk, State.digWrite_of_shows hs hg (showSymbolDig_shows s.cfg gc s.dig hk) 0⟩

/-- Settles O51: a group fill with the table entry; the counters stand in the frame. -/
theorem grpChaseEffect : Obligations.GrpChaseEffect :=
  fun s _ gc hs hg =>
    ⟨fun _ hq => ⟨_, exec_grpChase6 hs hg hq, State.digWrite_of_shows hs hg (groupFill_shows gc s.dig _) 0⟩,
      fun _ hq => ⟨_, exec_grpChase8 hs hg hq, State.digWrite_of_shows hs hg (groupFill_shows gc s.dig _) 0⟩⟩

/-- Settles O52: the step with the counter at its value plus one, modulo its range. -/
theorem grpChaseStepEffect : Obligations.GrpChaseStepEffect := by
  intro s g gc ch hs hg hch
  constructor
  · obtain ⟨hdone, hframe, hwired, hbyte, houtside, hcounter, hothers⟩ :=
      State.chaseStep_effect hs hg { ch with pos6 := ch.pos6 + 1 } s.cfg.chase6[ch.pos6.val]
    exact ⟨_, exec_grpChase6Step hg hch, hdone, hframe, hwired, hbyte, houtside,
      ⟨_, hcounter, Fin.val_add ch.pos6 1, rfl⟩, hothers⟩
  · obtain ⟨hdone, hframe, hwired, hbyte, houtside, hcounter, hothers⟩ :=
      State.chaseStep_effect hs hg { ch with pos8 := ch.pos8 + 1 } s.cfg.chase8[ch.pos8.val]
    exact ⟨_, exec_grpChase8Step hg hch, hdone, hframe, hwired, hbyte, houtside,
      ⟨_, hcounter, Fin.val_add ch.pos8 1, rfl⟩, hothers⟩

/-- Settles O47: the answer is the state with RESULT set. -/
theorem digGetRawResult : Obligations.DigGetRawResult :=
  fun s _ hp => ⟨_, exec_digGetRaw hp, s.completed_frame _, State.completed_completes _ _⟩
end

section
/-! The button machines (45_buttons.md): a poll looks at the buttons after its unit's transaction and writes the unit's
state, and its lamps where it has any; reading, consuming and setting a state touch neither the lamps nor the wire. -/

namespace Sys2Proof.Machine

open Sys2Proof.Safety

/-! ### What the configuration fixes (00_scope.md R7) -/

/-- The bit of a toggle machine lies on a board of the chain. -/
theorem toggle_bit_lt {s : State} (hs : Intact s) {u k : Nat} (hk : s.cfg.toggles[u]? = some k) :
    k < 8 * s.cfg.nbIo := by
  have hl := hs.legal
  simp only [Config.legal, Config.unitsLegal, Bool.and_eq_true, List.all_eq_true] at hl
  obtain ⟨⟨_, ⟨⟨⟨⟨_, htoggles⟩, _⟩, _⟩, _⟩, _⟩, _⟩ := hl
  exact of_decide_eq_true (htoggles k (List.mem_of_getElem? hk))

/-- The range of a select machine lies on the boards of the chain. -/
theorem select_end_le {s : State} (hs : Intact s) {u : Nat} {sc : SelectCfg} (hsc : s.cfg.selects[u]? = some sc) :
    sc.offset + sc.count ≤ 8 * s.cfg.nbIo := by
  have hl := hs.legal
  simp only [Config.legal, Config.unitsLegal, Bool.and_eq_true, List.all_eq_true] at hl
  obtain ⟨⟨_, ⟨⟨_, hselects⟩, _⟩, _⟩, _⟩ := hl
  obtain ⟨_, hend, _⟩ := of_decide_eq_true (hselects sc (List.mem_of_getElem? hsc))
  exact hend

/-! ### Unit lists and lamp bits after an update -/

/-- A unit's place in its list holds what was written there; the other units keep theirs. -/
theorem getElem?_set_unit {α : Type} {l : List α} {u : Nat} {y : α} (h : l[u]? = some y) (x : α) :
    (l.set u x)[u]? = some x ∧ ∀ u', u' ≠ u → (l.set u x)[u']? = l[u']? :=
  ⟨List.getElem?_set_self (List.getElem?_eq_some_iff.mp h).1, fun _ hne => List.getElem?_set_ne hne.symm⟩

@[simp] theorem State.ioAutoPre_lampBit (s : State) (k : Nat) : s.ioAutoPre.lampBit k = s.lampBit k := by
  simp only [State.lampBit, State.bit, State.ioAutoPre_byte_ioOut]

@[simp] theorem State.setToggle_lampBit (s : State) (u : Nat) (t : ToggleState) (k : Nat) :
    (s.setToggle u t).lampBit k = s.lampBit k := s.setToggle_bit u t .ioOut k

@[simp] theorem State.setSelect_lampBit (s : State) (u : Nat) (st : Option Nat) (k : Nat) :
    (s.setSelect u st).lampBit k = s.lampBit k := s.setSelect_bit u st .ioOut k

/-- The transaction before a poll, as the state the poll sees (42_ioboard.md R170). -/
theorem State.ioAuto_ioAutoPre {s : State} (hs : Intact s) : IoAuto s s.ioAutoPre := by
  unfold IoAuto State.ioAutoPre
  split
  · exact ⟨s.ioTransact_spec hs.ioIn, frame_mono s.ioTransact_frame (by decide)⟩
  · exact frame_refl _ s

/-- The transaction after a poll's lamp writes: what the poll did left the machine intact (45_buttons.md R252, R257). -/
theorem State.ioAuto_ioAutoPost_of_work {s p : State} {l : List Part} (hs : Intact s) (hw : Work l s.ioAutoPre p)
    (v : Word) : IoAuto p (p.ioAutoPost.completed v) :=
  p.ioAutoPost_auto v (hw.intact (s.ioAutoPre_work.intact hs)).ioIn

/-! ### The polls themselves, on the state they see (R252, R256, R257, R262) -/

theorem ToggleState.poll_eq (t : ToggleState) (b : Bool) :
    t.poll b = ⟨t.state ^^ (b && !t.latch), b, t.changed || (b && !t.latch)⟩ := by
  unfold ToggleState.poll pressEdge
  cases b && !t.latch <;> simp

theorem NoLampState.poll_eq (t : NoLampState) (n : Nat) (b : Bool) :
    t.poll n b =
      ⟨if b && !t.latch then (t.state + 1) % n else t.state, b, t.changed || (b && !t.latch)⟩ := by
  unfold NoLampState.poll pressEdge
  cases b && !t.latch <;> simp

/-- A poll of toggle `u` on bit `k`, between its transactions. -/
def State.tglPolled (m : State) (u k : Nat) (tg : ToggleState) : State :=
  (m.setToggle u (tg.poll (m.buttonBit k))).setLampBit k (tg.poll (m.buttonBit k)).state

theorem State.tglPolled_work (m : State) (u k : Nat) (tg : ToggleState) :
    Work [.toggles, .ioOut] m (m.tglPolled u k tg) :=
  (m.setToggle_work u _).trans (State.setLampBit_work _ k _)

theorem State.tglPolled_toggles (m : State) (u k : Nat) (tg : ToggleState) :
    (m.tglPolled u k tg).toggles = m.toggles.set u (tg.poll (m.buttonBit k)) := rfl

/-- The poll writes the toggle's own lamp and no other (R252). -/
theorem State.tglPolled_lampBit {m : State} (hm : Intact m) {u k : Nat} (hk : m.cfg.toggles[u]? = some k)
    (tg : ToggleState) (k' : Nat) :
    (m.tglPolled u k tg).lampBit k' = if k' = k then (tg.poll (m.buttonBit k)).state else m.lampBit k' := by
  have hlt := toggle_bit_lt hm hk
  have hlisted : ∃ b, (m.setToggle u (tg.poll (m.buttonBit k))).ioOut.read? (k / 8) = some b :=
    Memory.exists_of_range hm.ioOut (by omega)
  rw [State.tglPolled, State.setLampBit_lampBit _ _ _ _ hlisted, State.setToggle_lampBit]

/-- A poll of select `u`, between its transactions. -/
def State.selPolled (m : State) (u : Nat) (sc : SelectCfg) (st : Option Nat) : State :=
  (m.setSelect u (selNext (m.selScan sc) st)).selLamps sc (selNext (m.selScan sc) st)

theorem selNext_eq_ite (found st : Option Nat) : selNext found st = if found = none then st else found := by
  cases found <;> rfl

theorem bitWord_selChanged (found st : Option Nat) :
    bitWord (selChanged found st) = if found ≠ none ∧ found ≠ st then 1 else 0 := by
  simp only [bitWord_eq_ite, selChanged, Bool.and_eq_true, Bool.not_eq_true', decide_eq_false_iff_not,
    Option.isSome_iff_ne_none]

/-- On an intact machine the selection adopted is in range, so the poll keeps the machine intact (R257). -/
theorem State.selPolled_work {m : State} {u : Nat} {sc : SelectCfg} {st : Option Nat}
    (hsc : m.cfg.selects[u]? = some sc) (hst : m.selects[u]? = some st) :
    Work [.selects, .ioOut] m (m.selPolled u sc st) := by
  refine (State.setSelect_work fun hm sc' i hsc' => ?_).trans (State.selLamps_work _ sc _)
  obtain rfl := Option.some.inj (hsc.symm.trans hsc')
  exact selNext_selScan_lt (fun j hj => hm.selectRange u sc j hsc (hj ▸ hst)) i

theorem State.selPolled_selects (m : State) (u : Nat) (sc : SelectCfg) (st : Option Nat) :
    (m.selPolled u sc st).selects = m.selects.set u (selNext (m.selScan sc) st) :=
  State.selLamps_selects _ sc _

/-- The poll writes the lamps of the select's range and no other (R255). -/
theorem State.selPolled_lampBit {m : State} (hm : Intact m) {u : Nat} {sc : SelectCfg}
    (hsc : m.cfg.selects[u]? = some sc) (st : Option Nat) (k : Nat) :
    (m.selPolled u sc st).lampBit k =
      if sc.offset ≤ k ∧ k < sc.offset + sc.count then selLamp sc (selNext (m.selScan sc) st) (k - sc.offset)
      else m.lampBit k := by
  have hend := select_end_le hm hsc
  have hlisted (i : Nat) (hi : i < sc.count) :
      ∃ b, (m.setSelect u (selNext (m.selScan sc) st)).ioOut.read? ((sc.offset + i) / 8) = some b :=
    Memory.exists_of_range hm.ioOut (by omega)
  rw [State.selPolled, State.selLamps_lampBit _ _ _ _ hlisted, State.setSelect_lampBit]

/-! ### Commands on a unit in range (30_encoding.md R92) -/

section
variable {s : State} {u : Nat}

section
variable {k : Nat} {tg : ToggleState} (hk : s.cfg.toggles[u]? = some k) (htg : s.toggles[u]? = some tg)
include hk htg

theorem exec_tglPoll :
    exec (.tglPoll u) s = .next ((s.ioAutoPre.tglPolled u k tg).ioAutoPost.completed
      (bitWord (s.ioAutoPre.buttonBit k && !tg.latch))) :=
  withToggle_some _ hk htg

theorem exec_tglConsumeEvent :
    exec (.tglConsumeEvent u) s =
      .next ((s.setToggle u { tg with changed := false }).completed (bitWord tg.changed)) :=
  withToggle_some _ hk htg

theorem exec_tglGetState : exec (.tglGetState u) s = .next (s.completed (bitWord tg.state)) :=
  withToggle_some _ hk htg

end

section
variable {sc : SelectCfg} {st : Option Nat} (hsc : s.cfg.selects[u]? = some sc) (hst : s.selects[u]? = some st)
include hsc hst

theorem exec_selPoll :
    exec (.selPoll u) s = .next ((s.ioAutoPre.selPolled u sc st).ioAutoPost.completed
      (bitWord (selChanged (s.ioAutoPre.selScan sc) st))) :=
  withSelect_some _ hsc hst

theorem exec_selGetState : exec (.selGetState u) s = .next (s.completed (selWord st)) :=
  withSelect_some _ hsc hst

/-- An accepted state is the word of RESET or an index of the range (R259). -/
theorem exec_selSetState {new : Nat} (hnew : new = 0xFFFF ∨ new < sc.count) :
    exec (.selSetState u new) s =
      .next ((s.setSelect u (if new = 0xFFFF then none else some new)).completed 0) := by
  refine (withSelect_some _ hsc hst).trans ?_
  by_cases hreset : new = 0xFFFF
  · rw [if_pos hreset, if_pos hreset]
  · rw [if_neg hreset, if_neg hreset, if_pos (hnew.resolve_left hreset)]

end

section
variable {nc : NoLampCfg} {nl : NoLampState} (hnc : s.cfg.noLamps[u]? = some nc) (hnl : s.noLamps[u]? = some nl)
include hnc hnl

theorem exec_nlPoll :
    exec (.nlPoll u) s =
      .next ((s.ioAutoPre.setNoLamp u (nl.poll nc.states (s.ioAutoPre.buttonBit nc.bit))).completed
        (bitWord (s.ioAutoPre.buttonBit nc.bit && !nl.latch))) :=
  withNoLamp_some _ hnc hnl

theorem exec_nlConsumeEvent :
    exec (.nlConsumeEvent u) s =
      .next ((s.setNoLamp u { nl with changed := false }).completed (bitWord nl.changed)) :=
  withNoLamp_some _ hnc hnl

theorem exec_nlGetState : exec (.nlGetState u) s = .next (s.completed (BitVec.ofNat 32 nl.state)) :=
  withNoLamp_some _ hnc hnl

end

end

/-- A unit's update and then RESULT: a command with no transaction changes nothing else. -/
theorem frame_completed {l : List Part} {s m : State} (h : Frame l s m) (v : Word) :
    Frame (l ++ [.port]) s (m.completed v) :=
  frame_trans h (m.completed_frame v)

/-- A command that answers a bit completes with 1 or 0 (30_encoding.md R94). -/
theorem completes_bitWord (s : State) (b : Bool) : Completes (s.completed (bitWord b)) (if b then 1 else 0) :=
  ⟨bitWord_eq_ite b, rfl⟩

end Sys2Proof.Machine

/-! ### The obligations of 45_buttons.md -/

open Sys2Proof.Machine Sys2Proof.Safety

/-- Settles O53: the poll runs on the state after the first transaction, and the second sees its lamp. -/
theorem tglPollEffect : Obligations.TglPollEffect := by
  intro s u k tg hs hk htg
  have hm : Intact s.ioAutoPre := s.ioAutoPre_work.intact hs
  have hw := s.ioAutoPre.tglPolled_work u k tg
  have hlamp := State.tglPolled_lampBit hm (by rwa [State.ioAutoPre_cfg]) tg
  obtain ⟨hself, hothers⟩ := getElem?_set_unit htg (tg.poll (s.ioAutoPre.buttonBit k))
  refine ⟨s.ioAutoPre, s.ioAutoPre.tglPolled u k tg, _, exec_tglPoll hk htg, State.ioAuto_ioAutoPre hs,
    frame_mono hw.frame (by decide), State.ioAuto_ioAutoPost_of_work hs hw _, completes_bitWord _ _, ?_, ?_, ?_,
    fun k' hne => ?_⟩
  · rw [State.tglPolled_toggles, State.ioAutoPre_toggles, hself, ToggleState.poll_eq]
  · rwa [State.tglPolled_toggles, State.ioAutoPre_toggles]
  · rw [hlamp, if_pos rfl, ToggleState.poll_eq]
  · rw [hlamp, if_neg hne, State.ioAutoPre_lampBit]

/-- Settles O54: the poll runs on the state after the transaction and writes the unit's state alone. -/
theorem nlPollEffect : Obligations.NlPollEffect := by
  intro s u nc nl hs hnc hnl
  obtain ⟨hself, hothers⟩ := getElem?_set_unit hnl (nl.poll nc.states (s.ioAutoPre.buttonBit nc.bit))
  refine ⟨s.ioAutoPre, _, exec_nlPoll hnc hnl, State.ioAuto_ioAutoPre hs,
    frame_completed (State.setNoLamp_frame _ u _) _, completes_bitWord _ _, ?_, ?_⟩
  · rw [State.completed_noLamps, State.setNoLamp_noLamps, State.ioAutoPre_noLamps, hself, NoLampState.poll_eq]
  · rwa [State.completed_noLamps, State.setNoLamp_noLamps, State.ioAutoPre_noLamps]

/-- Settles O55: the second consume is the first one's rule again, on a machine whose flag is clear. -/
theorem consumeEventEffect : Obligations.ConsumeEventEffect := by
  constructor
  · intro s u k tg hk htg
    obtain ⟨hself, hothers⟩ := getElem?_set_unit htg { tg with changed := false }
    exact ⟨_, _, exec_tglConsumeEvent hk htg, completes_bitWord _ _, frame_completed (s.setToggle_frame u _) _, hself,
      hothers, exec_tglConsumeEvent hk hself, completes_bitWord _ false⟩
  · intro s u nc nl hnc hnl
    obtain ⟨hself, hothers⟩ := getElem?_set_unit hnl { nl with changed := false }
    exact ⟨_, _, exec_nlConsumeEvent hnc hnl, completes_bitWord _ _, frame_completed (s.setNoLamp_frame u _) _, hself,
      hothers, exec_nlConsumeEvent hnc hself, completes_bitWord _ false⟩

/-- Settles O56: each answer is the state with RESULT set. -/
theorem buttonGetterResults : Obligations.ButtonGetterResults := by
  refine ⟨fun s u k tg hk htg => ?_, fun s u sc st hsc hst => ?_, fun s u nc nl hnc hnl => ?_⟩
  · exact ⟨_, exec_tglGetState hk htg, s.completed_frame _, completes_bitWord s tg.state⟩
  · refine ⟨_, exec_selGetState hsc hst, s.completed_frame _, ?_⟩
    cases st with
    | none => exact State.completed_completes _ _
    | some i => exact State.completed_completes _ _
  · exact ⟨_, exec_nlGetState hnc hnl, s.completed_frame _, State.completed_completes _ _⟩

/-- Settles O57: the scan runs on the state after the first transaction, and the second sees the lamps of its range. -/
theorem selPollEffect : Obligations.SelPollEffect := by
  intro s u sc st hs hsc hst
  have hm : Intact s.ioAutoPre := s.ioAutoPre_work.intact hs
  have hscm : s.ioAutoPre.cfg.selects[u]? = some sc := by rwa [State.ioAutoPre_cfg]
  have hw : Work [.selects, .ioOut] s.ioAutoPre (s.ioAutoPre.selPolled u sc st) :=
    State.selPolled_work hscm (by rwa [State.ioAutoPre_selects])
  have hlamp := State.selPolled_lampBit hm hscm st
  obtain ⟨hfound, hnone⟩ := s.ioAutoPre.selScan_spec sc
  obtain ⟨hself, hothers⟩ := getElem?_set_unit hst (selNext (s.ioAutoPre.selScan sc) st)
  refine ⟨s.ioAutoPre, s.ioAutoPre.selPolled u sc st, _, s.ioAutoPre.selScan sc, exec_selPoll hsc hst,
    State.ioAuto_ioAutoPre hs, frame_mono hw.frame (by decide), State.ioAuto_ioAutoPost_of_work hs hw _, hfound, hnone,
    ⟨bitWord_selChanged _ st, rfl⟩, ?_, ?_, fun i hi => ?_, fun k hk => ?_⟩
  · rw [State.selPolled_selects, State.ioAutoPre_selects, hself, selNext_eq_ite]
  · rwa [State.selPolled_selects, State.ioAutoPre_selects]
  · rw [hlamp, if_pos (by omega), Nat.add_sub_cancel_left, selNext_eq_ite]
    rfl
  · rw [hlamp, if_neg (by omega), State.ioAutoPre_lampBit]

/-- Settles O58: the selection alone is written, with RESET or the index. -/
theorem selSetStateEffect : Obligations.SelSetStateEffect := by
  intro s u st sc old hsc hold hst
  obtain ⟨hself, hothers⟩ := getElem?_set_unit hold (if st = 0xFFFF then none else some st)
  exact ⟨_, exec_selSetState hsc hold hst, State.completed_completes _ 0, frame_completed (s.setSelect_frame u _) 0,
    hself, hothers⟩
end

section
/-! The status unit (46_status.md): STATUS is read as it is and cleared bit by bit, and a word with the code of a
command without operands is that command's encoding or has a reserved bit set. -/

namespace Sys2Proof

/-- A row without operands builds one command, whose one encoding (30_encoding.md R98) is the only word of its code that
decodes. -/
theorem decode_eq_reservedBits_of_ne_encode {w : CmdWord} {o : Opcode} {i : Instr}
    (hbuild : ∀ (u a : Nat) (b : Word), o.build u a b = i) (hopc : o.code = fieldOpc w) (hne : w ≠ encode i) :
    decode w = .error .reservedBits := by
  refine (decode_eq_reservedBits_iff w).mpr ⟨o, hopc, fun hres => ?_⟩
  have hok : decode w = .ok i := decode_eq_ok_iff.mpr ⟨o, hopc, hres, hbuild _ _ _⟩
  exact hne (encode_of_decode hok).symm

end Sys2Proof

namespace Sys2Proof.Machine

open Sys2Proof.Safety

/-! ### The bits of STATUS (10_state.md R35) -/

/-- R281: ILLEGAL and OOR go, the bits above them stay. -/
theorem getLsbD_clearFlags (st : Word) (j : Nat) : (clearFlags st).getLsbD j = (st.getLsbD j && decide (2 ≤ j)) := by
  by_cases hj : j < 32
  · have hmask : ∀ k < 32, (0xFFFFFFFC : Word).getLsbD k = decide (2 ≤ k) := by decide
    rw [clearFlags, BitVec.getLsbD_and, hmask j hj]
  · rw [BitVec.getLsbD_of_ge _ j (by omega), BitVec.getLsbD_of_ge st j (by omega), Bool.false_and]

/-- A STATUS whose reserved bits are 0 has no bit above OOR. -/
theorem ushiftRight_two_of_reserved {st : Word} (h : st &&& 0xFFFFFFFC = 0) : st >>> 2 = 0 := by
  refine BitVec.eq_of_getLsbD_eq fun j _ => ?_
  have hbit : (clearFlags st).getLsbD (2 + j) = false := by rw [clearFlags_eq_zero h]; exact BitVec.getLsbD_zero
  simpa [getLsbD_clearFlags] using hbit

/-- Setting a flag clears no bit. -/
theorem getLsbD_or_of_getLsbD {st : Word} {j : Nat} (flag : Word) (h : st.getLsbD j = true) :
    (st ||| flag).getLsbD j = true := by
  rw [BitVec.getLsbD_or, h, Bool.true_or]

/-! ### Both commands, and the step on an illegal word -/

theorem exec_statRead (s : State) : exec .statRead s = .next (s.completed s.status) := rfl

theorem exec_statClear (s : State) :
    exec .statClear s = .next ({ s with status := clearFlags s.status }.completed 0) := rfl

/-- A running machine takes the word presented, and one the decoder refuses is illegal (60_exceptions.md R302). -/
theorem step_of_decode_error {s : State} {w : CmdWord} {rest : List CmdWord} {info : IllegalInfo}
    (hl : s.cfg.legal = true) (hh : s.halted = false) (hw : s.host = w :: rest) (hd : decode w = .error info) :
    step s = .next (({ s with host := rest } : State).illegal info) := by
  simp [step, hl, hh, State.takeCommand, hw, hd]

/-- An illegal form sets ILLEGAL and gives RESULT 0; it does nothing of its command's own work. -/
theorem step_of_reservedBits {s : State} {w : CmdWord} {rest : List CmdWord} (hl : s.cfg.legal = true)
    (hh : s.halted = false) (hw : s.host = w :: rest) (hd : decode w = .error .reservedBits) :
    ∃ t, step s = .next t ∧ t.status = s.status ||| 1 ∧ t.result = 0 :=
  ⟨_, step_of_decode_error hl hh hw hd, rfl, rfl⟩

/-- The illegal forms of STAT_READ: every word of its code but its encoding (R280). -/
theorem decode_statRead_illegal {w : CmdWord} (hopc : w.extractLsb' 56 8 = 0x70) (hne : w ≠ 0x7000000000000000) :
    decode w = .error .reservedBits :=
  decode_eq_reservedBits_of_ne_encode (o := .statRead) (fun _ _ _ => rfl) hopc.symm hne

/-- The illegal forms of STAT_CLEAR: every word of its code but its encoding (R281). -/
theorem decode_statClear_illegal {w : CmdWord} (hopc : w.extractLsb' 56 8 = 0x71) (hne : w ≠ 0x7100000000000000) :
    decode w = .error .reservedBits :=
  decode_eq_reservedBits_of_ne_encode (o := .statClear) (fun _ _ _ => rfl) hopc.symm hne

/-- STAT_CLEAR's work on STATUS and then RESULT 0, bit by bit. -/
theorem exec_statClear_effect (s : State) :
    ∃ t, exec .statClear s = .next t ∧ Completes t 0 ∧ Frame [.status, .port] s t ∧
      ∀ j, t.status.getLsbD j = (s.status.getLsbD j && decide (2 ≤ j)) :=
  ⟨_, exec_statClear s, State.completed_completes _ 0, frame_completed (clearFlags_work s).frame 0,
    getLsbD_clearFlags s.status⟩

end Sys2Proof.Machine

/-! ### The obligations of 46_status.md -/

open Sys2Proof.Machine Sys2Proof.Safety

/-- Settles O60: the bits of the masked STATUS; any other command leaves STATUS or sets a flag in it (O20); an illegal
form never reaches the mask. -/
theorem statClearEffect : Obligations.StatClearEffect := by
  refine ⟨fun s => ?_, fun i s t j hi h hj => ?_, Sys2Proof.decode_of_encode_eq (i := .statClear) rfl rfl,
    fun s w rest hl hh hw hopc hne => step_of_reservedBits hl hh hw (decode_statClear_illegal hopc hne)⟩
  · obtain ⟨t, ht, hdone, hframe, hbits⟩ := exec_statClear_effect s
    refine ⟨t, ht, hdone, hframe, (hbits 0).trans (Bool.and_false _), (hbits 1).trans (Bool.and_false _),
      fun j hj => ?_⟩
    rw [hbits, decide_eq_true hj, Bool.and_true]
  · obtain hkept | ⟨hset, _⟩ | ⟨hset, _⟩ := statusBitsAreSticky i s t h hi
    · rwa [hkept]
    · rw [hset]
      exact getLsbD_or_of_getLsbD 1 hj
    · rw [hset]
      exact getLsbD_or_of_getLsbD 2 hj

/-- Settles O59: the answer is the state with RESULT set to STATUS, whose upper bits and hardwired OOR the invariant
keeps 0; an illegal form never reads it. -/
theorem statReadResult : Obligations.StatReadResult :=
  ⟨fun s => ⟨_, exec_statRead s, State.completed_completes s _, s.completed_frame _⟩,
    fun _ hs => ⟨ushiftRight_two_of_reserved hs.statusReserved, hs.statusOor⟩,
    Sys2Proof.decode_of_encode_eq (i := .statRead) rfl rfl,
    fun _ hopc hne => decode_statRead_illegal hopc hne,
    fun _ _ _ hl hh hw hopc hne => step_of_reservedBits hl hh hw (decode_statRead_illegal hopc hne)⟩
end

section
/-! The outcome of every command and of an idle step (60_exceptions.md): a legal command is rejected exactly on the
argument conditions of R308 and completes otherwise, a word the decoder refuses is illegal, and no word is no change. -/

namespace Sys2Proof.Machine

open Sys2Proof.Safety

/-! ### The outcome of a legal command (R300, R304) -/

/-- What a legal command answers on `s`, where `r` says whether R308 lists its arguments: it is rejected, or it
completes. -/
inductive RuledBy (s : State) (r : Bool) : Answer → Prop
  | rejected (h : r = true) : RuledBy s r (.next s.rejected)
  | completed (h : r = false) {m : State} {v : Word} : RuledBy s r (.next (m.completed v))

theorem RuledBy.eq_rejected {s : State} {a : Answer} (h : RuledBy s true a) : a = .next s.rejected := by
  cases h with
  | rejected => rfl
  | completed hr => cases hr

theorem RuledBy.exists_completed {s : State} {a : Answer} (h : RuledBy s false a) :
    ∃ m v, a = .next (State.completed m v) := by
  cases h with
  | rejected hr => cases hr
  | completed => exact ⟨_, _, rfl⟩

/-- A unit number below the count of its kind names a configuration and, the counts agreeing, a state. -/
theorem exists_unit {α β : Type} {l : List α} {l' : List β} {u : Nat} (hlen : l'.length = l.length)
    (hu : decide (l.length ≤ u) = false) : ∃ x y, l[u]? = some x ∧ l'[u]? = some y := by
  have hx := List.getElem?_eq_getElem (Nat.not_le.mp (of_decide_eq_false hu))
  obtain ⟨y, hy⟩ := getElem?_of_length hlen hx
  exact ⟨_, y, hx, hy⟩

section
variable {s : State} {r : Bool} {u : Nat}

/-- The check of an argument before the command's first effect (R301). -/
theorem ruledBy_rejectIf {p : Prop} [Decidable p] {a : Answer} (hp : p → r = true) (hn : ¬ p → RuledBy s r a) :
    RuledBy s r (if p then .next s.rejected else a) := by
  split
  · exact .rejected (hp ‹_›)
  · exact hn ‹_›

theorem ruledBy_acceptIf {p : Prop} [Decidable p] {a : Answer} (hp : p → RuledBy s r a) (hn : ¬ p → r = true) :
    RuledBy s r (if p then a else .next s.rejected) := by
  split
  · exact hp ‹_›
  · exact .rejected (hn ‹_›)

theorem ruledBy_withGroup {f : GroupCfg → ChaseState → Answer} (hs : Intact s)
    (hu : decide (s.cfg.groups.length ≤ u) = false) (h : ∀ gc ch, RuledBy s r (f gc ch)) :
    RuledBy s r (withGroup u s f) := by
  obtain ⟨gc, ch, hgc, hch⟩ := exists_unit hs.chase hu
  rw [withGroup_some f hgc hch]
  exact h gc ch

theorem ruledBy_withToggle {f : Nat → ToggleState → Answer} (hs : Intact s)
    (hu : decide (s.cfg.toggles.length ≤ u) = false) (h : ∀ k t, RuledBy s r (f k t)) :
    RuledBy s r (withToggle u s f) := by
  obtain ⟨k, t, hk, ht⟩ := exists_unit hs.toggles hu
  rw [withToggle_some f hk ht]
  exact h k t

/-- The rejection of SEL_SET_STATE depends on the select's configuration. -/
theorem ruledBy_withSelect {f : SelectCfg → Option Nat → Answer} (hs : Intact s)
    (hu : decide (s.cfg.selects.length ≤ u) = false)
    (h : ∀ sc st, s.cfg.selects[u]? = some sc → RuledBy s r (f sc st)) : RuledBy s r (withSelect u s f) := by
  obtain ⟨sc, st, hsc, hst⟩ := exists_unit hs.selects hu
  rw [withSelect_some f hsc hst]
  exact h sc st hsc

theorem ruledBy_withNoLamp {f : NoLampCfg → NoLampState → Answer} (hs : Intact s)
    (hu : decide (s.cfg.noLamps.length ≤ u) = false) (h : ∀ nc t, RuledBy s r (f nc t)) :
    RuledBy s r (withNoLamp u s f) := by
  obtain ⟨nc, t, hnc, ht⟩ := exists_unit hs.noLamps hu
  rw [withNoLamp_some f hnc ht]
  exact h nc t

end

/-! ### The conditions of R308 where the command checks them in other words -/

theorem rejects_pixSetOrder (c : Config) (m : Byte) : rejects c (.pixSetOrder m) = true ↔ m ∉ legalLaneMaps := by
  simp [rejects, legalLaneMaps, and_assoc]

theorem rejects_digCopySection (c : Config) (f t n : Nat) :
    rejects c (.digCopySection f t n) = true ↔ f + n > t ∨ t + n > c.ndig := by
  simp [rejects]

theorem rejects_selSetState {c : Config} {u : Nat} {sc : SelectCfg} (h : c.selects[u]? = some sc) (st : Nat) :
    rejects c (.selSetState u st) = true ↔ sc.count ≤ st ∧ st ≠ 0xFFFF := by
  simp [rejects, selCount, h]

/-- R304, R308: a legal command of an intact machine is rejected on the listed arguments and completes on all others. -/
theorem exec_ruledBy {i : Instr} {s : State} (hs : Intact s) (hu : badUnit s.cfg i = false) :
    RuledBy s (rejects s.cfg i) (exec i s) := by
  cases i with
  -- one condition, checked as R308 lists it
  | pixGetPixel | ioSetLamp | ioGetButton | ioRawWrite | ioRawRead | ioGetLamp | inReadBit | inReadByte | digSetDigit
  | digGetRaw => exact ruledBy_rejectIf decide_eq_true fun h => .completed (decide_eq_false h)
  -- conditions in other words
  | pixSetPixel i c =>
    exact ruledBy_rejectIf (fun h => decide_eq_true (by omega)) fun h => .completed (decide_eq_false (by omega))
  | pixSetOrder m =>
    have hrej := rejects_pixSetOrder s.cfg m
    exact ruledBy_acceptIf (fun hm => .completed (Bool.eq_false_iff.mpr fun h => hrej.mp h hm)) hrej.mpr
  | digCopySection f t n =>
    have hrej := rejects_digCopySection s.cfg f t n
    refine ruledBy_rejectIf (fun h => hrej.mpr (.inl h)) fun hfrom =>
      ruledBy_rejectIf (fun h => hrej.mpr (.inr h)) fun hto => .completed ?_
    exact Bool.eq_false_iff.mpr fun h => (hrej.mp h).elim hfrom hto
  -- digit groups
  | grpShowNumber | grpShowSigned | grpChase6Step | grpChase8Step =>
    exact ruledBy_withGroup hs hu fun _ _ => .completed rfl
  | grpShowSymbol g k =>
    exact ruledBy_withGroup hs hu fun _ _ =>
      ruledBy_rejectIf decide_eq_true fun h => .completed (decide_eq_false h)
  | grpChase6 | grpChase8 =>
    refine ruledBy_withGroup hs hu fun _ _ => ?_
    split
    · exact .completed (decide_eq_false (Nat.not_le.mpr ‹_›))
    · exact .rejected (decide_eq_true (Nat.not_lt.mp ‹_›))
  -- button machines
  | tglPoll | tglConsumeEvent | tglGetState => exact ruledBy_withToggle hs hu fun _ _ => .completed rfl
  | selPoll | selGetState => exact ruledBy_withSelect hs hu fun _ _ _ => .completed rfl
  | selSetState u st =>
    refine ruledBy_withSelect hs hu fun sc _ hsc => ?_
    have hrej := rejects_selSetState hsc st
    split
    · exact .completed (Bool.eq_false_iff.mpr fun h => (hrej.mp h).2 ‹_›)
    · refine ruledBy_acceptIf (fun hlt => .completed ?_) fun hlt => hrej.mpr ⟨Nat.not_lt.mp hlt, ‹_›⟩
      exact Bool.eq_false_iff.mpr fun h => Nat.not_lt.mpr (hrej.mp h).1 hlt
  | nlPoll | nlConsumeEvent | nlGetState => exact ruledBy_withNoLamp hs hu fun _ _ => .completed rfl
  -- commands R308 does not list
  | pixSetAll | pixFillRaw | pixTransmit | ioSetLampAll | ioCountPressed | ioCountPressedRange | ioTransact | inTransact
  | digTransmit | statRead | statClear => exact .completed rfl

theorem exec_of_rejects {i : Instr} {s : State} (hs : Intact s) (hu : badUnit s.cfg i = false)
    (hr : rejects s.cfg i = true) : exec i s = .next s.rejected :=
  (hr ▸ exec_ruledBy hs hu : RuledBy s true (exec i s)).eq_rejected

theorem exec_of_not_rejects {i : Instr} {s : State} (hs : Intact s) (hu : badUnit s.cfg i = false)
    (hr : rejects s.cfg i = false) : ∃ m v, exec i s = .next (State.completed m v) :=
  (hr ▸ exec_ruledBy hs hu : RuledBy s false (exec i s)).exists_completed

/-! ### The step without a command (R302, R315) -/

theorem takeWord_frame (s : State) (rest : List CmdWord) : Frame [.host] s { s with host := rest } := by
  intro p hp
  cases p <;> simp [agree] at hp ⊢

theorem step_of_no_word {s : State} (hl : s.cfg.legal = true) (hh : s.halted = false) (hw : s.host = []) :
    step s = .next s := by
  simp [step, hl, hh, State.takeCommand, hw]

end Sys2Proof.Machine

/-! ### The obligations of 60_exceptions.md -/

open Sys2Proof.Machine

/-- Settles O10: on a condition of R308 the command is `reject()`, which changes the port and STATUS alone. -/
theorem rejectedCallHasNoEffect : Obligations.RejectedCallHasNoEffect :=
  fun _ s hs hu hr => ⟨_, exec_of_rejects hs hu hr, s.rejected_frame, rfl, rfl, rfl⟩

/-- Settles O11: with its unit in range and its arguments accepted, only completion is left. -/
theorem acceptedCommandCompletes : Obligations.AcceptedCommandCompletes := by
  intro i s hs hu hr
  obtain ⟨m, v, h⟩ := exec_of_not_rejects hs hu hr
  exact ⟨_, h, rfl⟩

/-- Settles O8: the word is taken, which changes the host alone, and is then illegal. -/
theorem stepRaisesIllegal : Obligations.StepRaisesIllegal :=
  fun s _ rest info hl hh hw hd => ⟨_, step_of_decode_error hl hh hw hd,
    frame_mono (frame_trans (takeWord_frame s rest) (State.illegal_frame _ info)) (by decide), rfl, rfl, rfl, rfl⟩

/-- Settles O13: there is no word to take. -/
theorem idleStepWaits : Obligations.IdleStepWaits := fun _ hl hh hw => step_of_no_word hl hh hw
end

section
/-! The machine right after construction (10_state.md R45, 70_reset_and_hazards.md R331). -/

/-- Settles O16, field by field of the invariant: a new buffer lists its addresses, each unit list holds reset values alone,
and legality makes every no-lamp range nonempty. -/
theorem constructionIsIntact : Obligations.ConstructionIsIntact :=
  Sys2Proof.Machine.State.construct_intact
end
